-- ==== Sys2Proof/Word.lean ====
section
/-! DEFINITION. The word types of the specification: bytes on the wire, 16-bit register images, 32-bit command words. -/

namespace Sys2Proof

/-- One byte: a byte of the buffer `B` (10_state.md R12), a register pointer (R17). -/
abbrev Byte := BitVec 8

/-- A 16-bit register image or cell pattern; bit 0 is the least significant bit (00_scope.md R6). -/
abbrev Word := BitVec 16

/-- A command word `C` (30_encoding.md R50). -/
abbrev CmdWord := BitVec 32

end Sys2Proof
end

