-- ==== Sys2Proof/Syntax.lean ====
section
/-! DEFINITION. The names of the specification as plain inductive types: register kinds (10_state.md R18), cells of
the typed value file (R11), the three closed enumerations (R22 to R24), the channel selector (R25); the instruction set
`Instr`, one constructor per row of spec/opcode_table.json; the assembler's operands (30_encoding.md R57) and the
pseudo-operations (R58). -/

namespace Sys2Proof

/-- The nine register kinds of the layout table, in the order of the kind selector `K` (10_state.md R18). -/
inductive Kind where
  | cfg | sv1 | bv1 | sv2 | bv2 | sv3 | bv3 | mid | did
  deriving DecidableEq, Repr, Inhabited

/-- The ten cells of the typed value file, in the order of the field selector `F` (10_state.md R11). -/
inductive Field where
  | rst | en1 | en2 | en3 | avg | bct | sct | mode | volt | id
  deriving DecidableEq, Repr, Inhabited

/-- The three layout classes shared by the nine kinds (10_state.md R18, column "layout class"). -/
inductive Layout where
  | cfg | volt | id
  deriving DecidableEq, Repr, Inhabited

/-- Mode (10_state.md R22). Code 4 is a declared variant, `reserved4`: modelled, not rejected (90_conflicts.md C3). -/
inductive Mode where
  | powerDown | shuntVoltSingle | busVoltSingle | shuntBusSingle | reserved4
  | shuntVoltContinuous | busVoltContinuous | shuntBusContinuous
  deriving DecidableEq, Repr, Inhabited

/-- ConversionTime (10_state.md R23); each name gives the physical value in microseconds. -/
inductive ConversionTime where
  | ct140us | ct204us | ct332us | ct588us | ct1100us | ct2116us | ct4156us | ct8244us
  deriving DecidableEq, Repr, Inhabited

/-- Averages (10_state.md R24); each name gives the number of samples. -/
inductive Averages where
  | avg1 | avg4 | avg16 | avg64 | avg128 | avg256 | avg512 | avg1024
  deriving DecidableEq, Repr, Inhabited

/-- Channel (10_state.md R25): a selector of the facade, in no register image. -/
inductive Channel where
  | ch1 | ch2 | ch3
  deriving DecidableEq, Repr, Inhabited

/-- The instruction set: one constructor per row of spec/opcode_table.json (30_encoding.md R51 to R53). A row that takes
an immediate carries its 16 bits; every `imm` is legal (R54), so every term of this type is a well-formed command. -/
inductive Instr where
  | addrCfg
  | addrSv1
  | addrBv1
  | addrSv2
  | addrBv2
  | addrSv3
  | addrBv3
  | addrMid
  | addrDid
  | encCfg
  | encSv1
  | encBv1
  | encSv2
  | encBv2
  | encSv3
  | encBv3
  | encMid
  | encDid
  | decCfg
  | decSv1
  | decBv1
  | decSv2
  | decBv2
  | decSv3
  | decBv3
  | decMid
  | decDid
  | dfltCfg
  | dfltSv1
  | dfltBv1
  | dfltSv2
  | dfltBv2
  | dfltSv3
  | dfltBv3
  | dfltMid
  | dfltDid
  | setfRst (imm : Word)
  | setfEn1 (imm : Word)
  | setfEn2 (imm : Word)
  | setfEn3 (imm : Word)
  | setfAvg (imm : Word)
  | setfBct (imm : Word)
  | setfSct (imm : Word)
  | setfMode (imm : Word)
  | setfVolt (imm : Word)
  | setfId (imm : Word)
  | getfRst
  | getfEn1
  | getfEn2
  | getfEn3
  | getfAvg
  | getfBct
  | getfSct
  | getfMode
  | getfVolt
  | getfId
  | ldb (imm : Word)
  | getb
  | rdCfg
  | rdSv1
  | rdBv1
  | rdSv2
  | rdBv2
  | rdSv3
  | rdBv3
  | rdMid
  | rdDid
  | wrCfg
  | wrSv1
  | wrBv1
  | wrSv2
  | wrBv2
  | wrSv3
  | wrBv3
  | wrMid
  | wrDid
  | modfCfgRst (imm : Word)
  | modfCfgEn1 (imm : Word)
  | modfCfgEn2 (imm : Word)
  | modfCfgEn3 (imm : Word)
  | modfCfgAvg (imm : Word)
  | modfCfgBct (imm : Word)
  | modfCfgSct (imm : Word)
  | modfCfgMode (imm : Word)
  | modfSv1Volt (imm : Word)
  | modfBv1Volt (imm : Word)
  | modfSv2Volt (imm : Word)
  | modfBv2Volt (imm : Word)
  | modfSv3Volt (imm : Word)
  | modfBv3Volt (imm : Word)
  | modfMidId (imm : Word)
  | modfDidId (imm : Word)
  deriving DecidableEq, Repr, Inhabited

/-- How an immediate may be written (30_encoding.md R57): a number 0..0xFFFF, a signed decimal (for `volt`), or the name of
an enumeration's variant. -/
inductive ImmText where
  | num (n : Nat)
  | signed (x : Int)
  | mode (m : Mode)
  | convTime (c : ConversionTime)
  | averages (a : Averages)
  deriving DecidableEq, Repr

/-- One line of the assembler: mnemonic, then kind, field, immediate (30_encoding.md R57). Not every term names a command:
`Asm.wellFormed` says which do. -/
inductive Asm where
  | addr (k : Kind) | enc (k : Kind) | dec (k : Kind) | dflt (k : Kind)
  | setf (f : Field) (imm : ImmText) | getf (f : Field)
  | ldb (imm : ImmText) | getb
  | rd (k : Kind) | wr (k : Kind) | modf (k : Kind) (f : Field) (imm : ImmText)
  deriving DecidableEq, Repr

/-- The fifteen pseudo-operations of the facade (30_encoding.md R58, 43_facade_pseudo_ops.md R110 to R119). They have no
command word of their own: the host issues their expansion. -/
inductive Pseudo where
  | reset
  | ench (n : Channel) | disch (n : Channel)
  | setmode (m : Mode) | getmode
  | setbct (t : ConversionTime) | getbct
  | setsct (t : ConversionTime) | getsct
  | setavg (a : Averages) | getavg
  | shuntv (n : Channel) | busv (n : Channel)
  | mfgid | dieid
  deriving DecidableEq, Repr

end Sys2Proof
end

