-- ==== Sys2Proof/WellFormed.lean ====
section
/-! DEFINITION. Which assembler lines name a command (30_encoding.md R53, R57). A term of `Instr` needs no check: its
constructors are the rows of the opcode table and every 16-bit immediate is legal (R54). -/

namespace Sys2Proof

/-- The fields `MODF` accepts with a kind (30_encoding.md R53). -/
def Kind.hasField : Kind → Field → Bool
  | .cfg, .volt => false
  | .cfg, .id => false
  | .cfg, _ => true
  | .mid, f => f = .id
  | .did, f => f = .id
  | _, f => f = .volt

/-- Whether an immediate may be written so for a field (30_encoding.md R57). -/
def ImmText.fits : ImmText → Field → Bool
  | .num n, _ => n ≤ 0xFFFF
  | .signed x, f => f = .volt && (-4096 ≤ x && x ≤ 4095)
  | .mode _, f => f = .mode
  | .convTime _, f => f = .bct || f = .sct
  | .averages _, f => f = .avg

/-- `LDB` takes a number 0..0xFFFF: it has no field, so no signed number and no variant name (30_encoding.md R57). -/
def ImmText.isImage : ImmText → Bool
  | .num n => n ≤ 0xFFFF
  | _ => false

/-- The assembler lines that name a command: the immediate fits its field and, for `MODF`, the field belongs to the kind
(30_encoding.md R53, R57). -/
def Asm.wellFormed : Asm → Bool
  | .setf f imm => imm.fits f
  | .ldb imm => imm.isImage
  | .modf k f imm => k.hasField f && imm.fits f
  | _ => true

end Sys2Proof
end

