-- ==== Sys2Proof/Decode.lean ====
section
/-! DEFINITION. The command encoding (30_encoding.md): the decoder, total on all 2^32 words and rejecting by name in the
order of R56; the encoder; the opcode map as rows of match and mask (section 7); the host's numbering of a table word. -/

namespace Sys2Proof

/-- The eleven operations (30_encoding.md R51). -/
inductive Op where
  | addr | enc | dec | dflt | setf | getf | ldb | getb | rd | wr | modf
  deriving DecidableEq, Repr

/-- Why a word is illegal, in the order of checks of 30_encoding.md R56. All six end in IllegalCommand. -/
inductive Illegal where
  /-- (1) `op` is not in 0x1..0xB. -/
  | op
  /-- (2) the `zero` field is not 0. -/
  | zero
  /-- (3) a field the operation does not take is not 0. -/
  | unused
  /-- (4) `kind` is taken and not in 0..8. -/
  | kind
  /-- (5) `fld` is taken and not in 0..9. -/
  | fld
  /-- (6) `MODF` with a field that does not belong to the kind. -/
  | fldOfKind
  deriving DecidableEq, Repr

/-! ## The fields of a word (R50) -/

/-- `C[31:28]`. -/
def opField (c : CmdWord) : BitVec 4 := c.extractLsb' 28 4

/-- `C[27:24]`. -/
def kindField (c : CmdWord) : BitVec 4 := c.extractLsb' 24 4

/-- `C[23:20]`. -/
def fldField (c : CmdWord) : BitVec 4 := c.extractLsb' 20 4

/-- `C[19:16]`. -/
def zeroField (c : CmdWord) : BitVec 4 := c.extractLsb' 16 4

/-- `C[15:0]`. -/
def immField (c : CmdWord) : Word := c.extractLsb' 0 16

/-! ## Field values (R51 to R53) -/

/-- The operation an `op` field selects (R51). -/
def opOf? (o : BitVec 4) : Option Op :=
  match o.toNat with
  | 0x1 => some .addr
  | 0x2 => some .enc
  | 0x3 => some .dec
  | 0x4 => some .dflt
  | 0x5 => some .setf
  | 0x6 => some .getf
  | 0x7 => some .ldb
  | 0x8 => some .getb
  | 0x9 => some .rd
  | 0xA => some .wr
  | 0xB => some .modf
  | _ => none

/-- The kind a `kind` field selects (R52). -/
def kindOf? (k : BitVec 4) : Option Kind :=
  match k.toNat with
  | 0 => some .cfg
  | 1 => some .sv1
  | 2 => some .bv1
  | 3 => some .sv2
  | 4 => some .bv2
  | 5 => some .sv3
  | 6 => some .bv3
  | 7 => some .mid
  | 8 => some .did
  | _ => none

/-- The cell a `fld` field selects (R53). -/
def fldOf? (f : BitVec 4) : Option Field :=
  match f.toNat with
  | 0 => some .rst
  | 1 => some .en1
  | 2 => some .en2
  | 3 => some .en3
  | 4 => some .avg
  | 5 => some .bct
  | 6 => some .sct
  | 7 => some .mode
  | 8 => some .volt
  | 9 => some .id
  | _ => none

/-- The operations that take a kind (R52). -/
def Op.takesKind : Op → Bool
  | .addr | .enc | .dec | .dflt | .rd | .wr | .modf => true
  | .setf | .getf | .ldb | .getb => false

/-- The operations that take a field (R53). -/
def Op.takesFld : Op → Bool
  | .setf | .getf | .modf => true
  | .addr | .enc | .dec | .dflt | .ldb | .getb | .rd | .wr => false

/-- The operations that take an immediate (R54). -/
def Op.takesImm : Op → Bool
  | .setf | .ldb | .modf => true
  | .addr | .enc | .dec | .dflt | .getf | .getb | .rd | .wr => false

/-- Check (3) of R56: some field the operation does not take is not 0. -/
def unusedSet (o : Op) (c : CmdWord) : Bool :=
  (!o.takesKind && kindField c != 0) || (!o.takesFld && fldField c != 0) || (!o.takesImm && immField c != 0)

/-! ## From operation, kind and field to the constructor of the row -/

/-- The nine `ADDR` rows. -/
def addrOf : Kind → Instr
  | .cfg => .addrCfg
  | .sv1 => .addrSv1
  | .bv1 => .addrBv1
  | .sv2 => .addrSv2
  | .bv2 => .addrBv2
  | .sv3 => .addrSv3
  | .bv3 => .addrBv3
  | .mid => .addrMid
  | .did => .addrDid

/-- The nine `ENC` rows. -/
def encOf : Kind → Instr
  | .cfg => .encCfg
  | .sv1 => .encSv1
  | .bv1 => .encBv1
  | .sv2 => .encSv2
  | .bv2 => .encBv2
  | .sv3 => .encSv3
  | .bv3 => .encBv3
  | .mid => .encMid
  | .did => .encDid

/-- The nine `DEC` rows. -/
def decOf : Kind → Instr
  | .cfg => .decCfg
  | .sv1 => .decSv1
  | .bv1 => .decBv1
  | .sv2 => .decSv2
  | .bv2 => .decBv2
  | .sv3 => .decSv3
  | .bv3 => .decBv3
  | .mid => .decMid
  | .did => .decDid

/-- The nine `DFLT` rows. -/
def dfltOf : Kind → Instr
  | .cfg => .dfltCfg
  | .sv1 => .dfltSv1
  | .bv1 => .dfltBv1
  | .sv2 => .dfltSv2
  | .bv2 => .dfltBv2
  | .sv3 => .dfltSv3
  | .bv3 => .dfltBv3
  | .mid => .dfltMid
  | .did => .dfltDid

/-- The nine `RD` rows. -/
def rdOf : Kind → Instr
  | .cfg => .rdCfg
  | .sv1 => .rdSv1
  | .bv1 => .rdBv1
  | .sv2 => .rdSv2
  | .bv2 => .rdBv2
  | .sv3 => .rdSv3
  | .bv3 => .rdBv3
  | .mid => .rdMid
  | .did => .rdDid

/-- The nine `WR` rows. -/
def wrOf : Kind → Instr
  | .cfg => .wrCfg
  | .sv1 => .wrSv1
  | .bv1 => .wrBv1
  | .sv2 => .wrSv2
  | .bv2 => .wrBv2
  | .sv3 => .wrSv3
  | .bv3 => .wrBv3
  | .mid => .wrMid
  | .did => .wrDid

/-- The ten `SETF` rows. -/
def setfOf : Field → Word → Instr
  | .rst, imm => .setfRst imm
  | .en1, imm => .setfEn1 imm
  | .en2, imm => .setfEn2 imm
  | .en3, imm => .setfEn3 imm
  | .avg, imm => .setfAvg imm
  | .bct, imm => .setfBct imm
  | .sct, imm => .setfSct imm
  | .mode, imm => .setfMode imm
  | .volt, imm => .setfVolt imm
  | .id, imm => .setfId imm

/-- The ten `GETF` rows. -/
def getfOf : Field → Instr
  | .rst => .getfRst
  | .en1 => .getfEn1
  | .en2 => .getfEn2
  | .en3 => .getfEn3
  | .avg => .getfAvg
  | .bct => .getfBct
  | .sct => .getfSct
  | .mode => .getfMode
  | .volt => .getfVolt
  | .id => .getfId

/-- The sixteen `MODF` rows; no row where the field does not belong to the kind (R53). -/
def modfOf : Kind → Field → Word → Option Instr
  | .cfg, .rst, imm => some (.modfCfgRst imm)
  | .cfg, .en1, imm => some (.modfCfgEn1 imm)
  | .cfg, .en2, imm => some (.modfCfgEn2 imm)
  | .cfg, .en3, imm => some (.modfCfgEn3 imm)
  | .cfg, .avg, imm => some (.modfCfgAvg imm)
  | .cfg, .bct, imm => some (.modfCfgBct imm)
  | .cfg, .sct, imm => some (.modfCfgSct imm)
  | .cfg, .mode, imm => some (.modfCfgMode imm)
  | .sv1, .volt, imm => some (.modfSv1Volt imm)
  | .bv1, .volt, imm => some (.modfBv1Volt imm)
  | .sv2, .volt, imm => some (.modfSv2Volt imm)
  | .bv2, .volt, imm => some (.modfBv2Volt imm)
  | .sv3, .volt, imm => some (.modfSv3Volt imm)
  | .bv3, .volt, imm => some (.modfBv3Volt imm)
  | .mid, .id, imm => some (.modfMidId imm)
  | .did, .id, imm => some (.modfDidId imm)
  | _, _, _ => none

/-- Checks (4) to (6) of R56 and the row selected. -/
def decodeOperands (o : Op) (k f : BitVec 4) (imm : Word) : Except Illegal Instr :=
  let withKind (row : Kind → Instr) : Except Illegal Instr :=
    match kindOf? k with
    | none => .error .kind
    | some kind => .ok (row kind)
  let withFld (row : Field → Instr) : Except Illegal Instr :=
    match fldOf? f with
    | none => .error .fld
    | some fld => .ok (row fld)
  match o with
  | .addr => withKind addrOf
  | .enc => withKind encOf
  | .dec => withKind decOf
  | .dflt => withKind dfltOf
  | .setf => withFld fun fld => setfOf fld imm
  | .getf => withFld getfOf
  | .ldb => .ok (.ldb imm)
  | .getb => .ok .getb
  | .rd => withKind rdOf
  | .wr => withKind wrOf
  | .modf =>
    match kindOf? k with
    | none => .error .kind
    | some kind =>
      match fldOf? f with
      | none => .error .fld
      | some fld =>
        match modfOf kind fld imm with
        | none => .error .fldOfKind
        | some i => .ok i

/-- The decoder: the checks of R56 in their order, total on all words; every failure is named. -/
def decode (c : CmdWord) : Except Illegal Instr :=
  match opOf? (opField c) with
  | none => .error .op
  | some o =>
    if zeroField c ≠ 0 then .error .zero
    else if unusedSet o c then .error .unused
    else decodeOperands o (kindField c) (fldField c) (immField c)

/-! ## The encoder -/

/-- The four fields of a command's word that are not the `zero` field (R50). -/
structure CmdFields where
  op : BitVec 4
  kind : BitVec 4
  fld : BitVec 4
  imm : Word
  deriving DecidableEq, Repr

/-- The fields of each row, as spec/opcode_table.json lists them. -/
def cmdFields : Instr → CmdFields
  | .addrCfg => ⟨0x1, 0, 0, 0⟩
  | .addrSv1 => ⟨0x1, 1, 0, 0⟩
  | .addrBv1 => ⟨0x1, 2, 0, 0⟩
  | .addrSv2 => ⟨0x1, 3, 0, 0⟩
  | .addrBv2 => ⟨0x1, 4, 0, 0⟩
  | .addrSv3 => ⟨0x1, 5, 0, 0⟩
  | .addrBv3 => ⟨0x1, 6, 0, 0⟩
  | .addrMid => ⟨0x1, 7, 0, 0⟩
  | .addrDid => ⟨0x1, 8, 0, 0⟩
  | .encCfg => ⟨0x2, 0, 0, 0⟩
  | .encSv1 => ⟨0x2, 1, 0, 0⟩
  | .encBv1 => ⟨0x2, 2, 0, 0⟩
  | .encSv2 => ⟨0x2, 3, 0, 0⟩
  | .encBv2 => ⟨0x2, 4, 0, 0⟩
  | .encSv3 => ⟨0x2, 5, 0, 0⟩
  | .encBv3 => ⟨0x2, 6, 0, 0⟩
  | .encMid => ⟨0x2, 7, 0, 0⟩
  | .encDid => ⟨0x2, 8, 0, 0⟩
  | .decCfg => ⟨0x3, 0, 0, 0⟩
  | .decSv1 => ⟨0x3, 1, 0, 0⟩
  | .decBv1 => ⟨0x3, 2, 0, 0⟩
  | .decSv2 => ⟨0x3, 3, 0, 0⟩
  | .decBv2 => ⟨0x3, 4, 0, 0⟩
  | .decSv3 => ⟨0x3, 5, 0, 0⟩
  | .decBv3 => ⟨0x3, 6, 0, 0⟩
  | .decMid => ⟨0x3, 7, 0, 0⟩
  | .decDid => ⟨0x3, 8, 0, 0⟩
  | .dfltCfg => ⟨0x4, 0, 0, 0⟩
  | .dfltSv1 => ⟨0x4, 1, 0, 0⟩
  | .dfltBv1 => ⟨0x4, 2, 0, 0⟩
  | .dfltSv2 => ⟨0x4, 3, 0, 0⟩
  | .dfltBv2 => ⟨0x4, 4, 0, 0⟩
  | .dfltSv3 => ⟨0x4, 5, 0, 0⟩
  | .dfltBv3 => ⟨0x4, 6, 0, 0⟩
  | .dfltMid => ⟨0x4, 7, 0, 0⟩
  | .dfltDid => ⟨0x4, 8, 0, 0⟩
  | .setfRst imm => ⟨0x5, 0, 0, imm⟩
  | .setfEn1 imm => ⟨0x5, 0, 1, imm⟩
  | .setfEn2 imm => ⟨0x5, 0, 2, imm⟩
  | .setfEn3 imm => ⟨0x5, 0, 3, imm⟩
  | .setfAvg imm => ⟨0x5, 0, 4, imm⟩
  | .setfBct imm => ⟨0x5, 0, 5, imm⟩
  | .setfSct imm => ⟨0x5, 0, 6, imm⟩
  | .setfMode imm => ⟨0x5, 0, 7, imm⟩
  | .setfVolt imm => ⟨0x5, 0, 8, imm⟩
  | .setfId imm => ⟨0x5, 0, 9, imm⟩
  | .getfRst => ⟨0x6, 0, 0, 0⟩
  | .getfEn1 => ⟨0x6, 0, 1, 0⟩
  | .getfEn2 => ⟨0x6, 0, 2, 0⟩
  | .getfEn3 => ⟨0x6, 0, 3, 0⟩
  | .getfAvg => ⟨0x6, 0, 4, 0⟩
  | .getfBct => ⟨0x6, 0, 5, 0⟩
  | .getfSct => ⟨0x6, 0, 6, 0⟩
  | .getfMode => ⟨0x6, 0, 7, 0⟩
  | .getfVolt => ⟨0x6, 0, 8, 0⟩
  | .getfId => ⟨0x6, 0, 9, 0⟩
  | .ldb imm => ⟨0x7, 0, 0, imm⟩
  | .getb => ⟨0x8, 0, 0, 0⟩
  | .rdCfg => ⟨0x9, 0, 0, 0⟩
  | .rdSv1 => ⟨0x9, 1, 0, 0⟩
  | .rdBv1 => ⟨0x9, 2, 0, 0⟩
  | .rdSv2 => ⟨0x9, 3, 0, 0⟩
  | .rdBv2 => ⟨0x9, 4, 0, 0⟩
  | .rdSv3 => ⟨0x9, 5, 0, 0⟩
  | .rdBv3 => ⟨0x9, 6, 0, 0⟩
  | .rdMid => ⟨0x9, 7, 0, 0⟩
  | .rdDid => ⟨0x9, 8, 0, 0⟩
  | .wrCfg => ⟨0xA, 0, 0, 0⟩
  | .wrSv1 => ⟨0xA, 1, 0, 0⟩
  | .wrBv1 => ⟨0xA, 2, 0, 0⟩
  | .wrSv2 => ⟨0xA, 3, 0, 0⟩
  | .wrBv2 => ⟨0xA, 4, 0, 0⟩
  | .wrSv3 => ⟨0xA, 5, 0, 0⟩
  | .wrBv3 => ⟨0xA, 6, 0, 0⟩
  | .wrMid => ⟨0xA, 7, 0, 0⟩
  | .wrDid => ⟨0xA, 8, 0, 0⟩
  | .modfCfgRst imm => ⟨0xB, 0, 0, imm⟩
  | .modfCfgEn1 imm => ⟨0xB, 0, 1, imm⟩
  | .modfCfgEn2 imm => ⟨0xB, 0, 2, imm⟩
  | .modfCfgEn3 imm => ⟨0xB, 0, 3, imm⟩
  | .modfCfgAvg imm => ⟨0xB, 0, 4, imm⟩
  | .modfCfgBct imm => ⟨0xB, 0, 5, imm⟩
  | .modfCfgSct imm => ⟨0xB, 0, 6, imm⟩
  | .modfCfgMode imm => ⟨0xB, 0, 7, imm⟩
  | .modfSv1Volt imm => ⟨0xB, 1, 8, imm⟩
  | .modfBv1Volt imm => ⟨0xB, 2, 8, imm⟩
  | .modfSv2Volt imm => ⟨0xB, 3, 8, imm⟩
  | .modfBv2Volt imm => ⟨0xB, 4, 8, imm⟩
  | .modfSv3Volt imm => ⟨0xB, 5, 8, imm⟩
  | .modfBv3Volt imm => ⟨0xB, 6, 8, imm⟩
  | .modfMidId imm => ⟨0xB, 7, 9, imm⟩
  | .modfDidId imm => ⟨0xB, 8, 9, imm⟩

/-- The word `C` with the given fields: `op ∥ kind ∥ fld ∥ 0 ∥ imm` (R50). -/
def packFields (p : CmdFields) : CmdWord := p.op ++ p.kind ++ p.fld ++ (0 : BitVec 4) ++ p.imm

/-- The encoder: the command word of an instruction. -/
def encode (i : Instr) : CmdWord := packFields (cmdFields i)

/-! ## The opcode map as rows (30_encoding.md section 7) -/

/-- A row: a word `C` selects it when `C & mask == pattern`. -/
structure OpcodeRow where
  pattern : CmdWord
  mask : CmdWord
  deriving DecidableEq, Repr

/-- Whether a word selects a row. -/
def OpcodeRow.selects (r : OpcodeRow) (c : CmdWord) : Bool := c &&& r.mask == r.pattern

/-- The rows `base | k<<24`, `k` in 0..8, of an operation that takes a kind only. -/
def kindRows (base : CmdWord) : List OpcodeRow :=
  (List.range 9).map fun k => ⟨base ||| (BitVec.ofNat 32 k <<< 24), 0xFFFFFFFF⟩

/-- The rows `base | f<<20`, `f` in 0..9, of an operation that takes a field. -/
def fldRows (base mask : CmdWord) : List OpcodeRow :=
  (List.range 10).map fun f => ⟨base ||| (BitVec.ofNat 32 f <<< 20), mask⟩

/-- The sixteen rows of `MODF`: (CFG, f = 0..7), (k = 1..6, f = 8), (k = 7..8, f = 9). -/
def modfRows : List OpcodeRow :=
  let pairs := (List.range 8).map (fun f => (0, f)) ++ [(1, 8), (2, 8), (3, 8), (4, 8), (5, 8), (6, 8), (7, 9), (8, 9)]
  pairs.map fun p => ⟨0xB0000000 ||| (BitVec.ofNat 32 p.1 <<< 24) ||| (BitVec.ofNat 32 p.2 <<< 20), 0xFFFF0000⟩

/-- The 92 rows of the opcode map. -/
def opcodeRows : List OpcodeRow :=
  kindRows 0x10000000 ++ kindRows 0x20000000 ++ kindRows 0x30000000 ++ kindRows 0x40000000 ++
  fldRows 0x50000000 0xFFFF0000 ++ fldRows 0x60000000 0xFFFFFFFF ++
  [⟨0x70000000, 0xFFFF0000⟩, ⟨0x80000000, 0xFFFFFFFF⟩] ++
  kindRows 0x90000000 ++ kindRows 0xA0000000 ++ modfRows

/-! ## The host's numbering -/

/-- The instruction read from a word of `nbits` bits numbered as spec/opcode_table.json numbers them. The 32-bit word is the
unit of the command port (R50), so the number is the word; bits at and above `nbits` are 0. A word longer than a command is
none. -/
def decodeTableWord (nbits w : Nat) : Option Instr :=
  if 32 < nbits then none
  else
    match decode (BitVec.ofNat 32 (w % 2 ^ nbits)) with
    | .ok i => some i
    | .error _ => none

end Sys2Proof
end

