-- ==== Sys2Proof/Config.lean ====
section
/-! DEFINITION. What the specification leaves open to the machine's surroundings: the types of the transport's answers and the
free values. Every opaque constant here has no body: nothing can be proved of its value, so a claim holds whatever it is. The
parameters the specification fixes a value for are in Machine/Params.lean. -/

namespace Sys2Proof

/-- The cause of a transport failure, `TErr` (00_scope.md R4, OPEN): opaque, passed through unchanged (20_memory.md R37). A number
stands for a cause so that states are plain data; the engine never looks at it (log entry 4, DESIGN CHOICE, unsafe for a
statement that counts causes; none does). -/
structure TErr where
  cause : Nat
  deriving DecidableEq, Repr, Inhabited

/-- The two phases of a write transaction (20_memory.md R35). -/
inductive Phase where
  | pointerSet | dataWrite
  deriving DecidableEq, Repr, Inhabited

/-- What `MemRead` answers: two bytes in the order received, or TransportError (20_memory.md R31). -/
inductive ReadAnswer where
  | bytes (b0 b1 : Byte)
  | failed (e : TErr)
  deriving DecidableEq, Repr, Inhabited

/-- What `MemWrite` answers: success, or TransportError in one of the two phases (20_memory.md R35). -/
inductive WriteAnswer where
  | success
  | failed (phase : Phase) (e : TErr)
  deriving DecidableEq, Repr, Inhabited

/-- Free value: what the unconstrained oracle answers to the `n`th draw, if it is a read (20_memory.md R43; log entry 1). -/
opaque Config.readAnswer : Nat → ReadAnswer

/-- Free value: what the unconstrained oracle answers to the `n`th draw, if it is a write (20_memory.md R43; log entry 1). -/
opaque Config.writeAnswer : Nat → WriteAnswer

/-- Free value: a device register's content after a failed write, a draw over all 16-bit values (20_memory.md R36, 93 U3; log
entry 1). -/
opaque Config.devWord : Nat → Word

/-- Free value: the content at engine reset of a device byte nothing has written (10_state.md R28: unspecified; log entry 3). -/
opaque Config.devByte : Nat → Byte

/-- Free value: the device's register pointer where it is unspecified (10_state.md R27, 93 U7; log entry 6). -/
opaque Config.devPointer : Nat → Byte

/-- A permutation of the 7-bit addresses, from which the four device addresses are taken: every injective table is such a
restriction, and no table that is not injective is (10_state.md R16). -/
opaque Config.addressStrap : Equiv.Perm (BitVec 7)

/-- `DEVADDR`: selector value to 7-bit device address, injective, values OPEN (00_scope.md R4, 10_state.md R16; log entry 5). -/
def Config.devAddr (sel : BitVec 2) : BitVec 7 := Config.addressStrap (sel.setWidth 7)

end Sys2Proof
end

