-- ==== Sys2Proof/Machine/Params.lean ====
section
/-! DEFINITION. The parameters of the engine that the specification gives a value (00_scope.md R4; log entry 11,
UNVERIFIED: 93_implementation_defined.md U12; unsafe for claims about the chip). -/

namespace Sys2Proof.Machine

/-- `DEFAULT_EN`: the default of the three channel-enable flags, bit 2 for en1, bit 1 for en2, bit 0 for en3 (00_scope.md R4,
90_conflicts.md C5). -/
def defaultEn : BitVec 3 := 0b000

/-- `WR_POINTER_CHECK`: a write checks the pointer-set phase before the data phase (00_scope.md R4, 92_eei_decisions.md D16). -/
def wrPointerCheck : Bool := true

/-- `SHUNT_LSB` in microvolts per count (00_scope.md R4). -/
def shuntLsbMicrovolts : Int := 40

/-- `BUS_LSB` in millivolts per count (00_scope.md R4). -/
def busLsbMillivolts : Int := 8

/-- `MFG_ID_EXPECTED`: documentation for the host; the engine compares nothing (00_scope.md R4, 92_eei_decisions.md D30). -/
def mfgIdExpected : Word := 0x5449

/-- `DIE_ID_EXPECTED`: documentation for the host; the engine compares nothing (00_scope.md R4, 92_eei_decisions.md D30). -/
def dieIdExpected : Word := 0x3220

end Sys2Proof.Machine
end

