-- ==== Sys2Proof/Machine/State.lean ====
section
/-! DEFINITION. The state of the machine as plain data: the engine's latches `T`, `B`, `RES` (10_state.md R11 to R13), the
history `BUSLOG` (R15), the strap `A_SEL` (R16), the world outside the engine (R27, 20_memory.md R43, R44) and the host's
program (10_state.md R14); the reasons a step can stop; the state after reset (R28). -/

namespace Sys2Proof.Machine

/-! ## The engine's latches -/

/-- A typed Configuration value: the eight cells of `T` that belong to kind CFG (10_state.md R11, R19). A flag is its bit; an
enumeration is its variant, whose ordinal is what the host sees (92_eei_decisions.md D7; log entry 10, DEDUCED, safe). -/
structure Cfg where
  rst : Bool
  en1 : Bool
  en2 : Bool
  en3 : Bool
  avg : Averages
  bct : ConversionTime
  sct : ConversionTime
  mode : Mode
  deriving DecidableEq, Repr, Inhabited

/-- The typed value file `T` (10_state.md R11): the eight Configuration cells, `T.volt` (16 bits, `sext_16` of a 13-bit value)
and `T.id` (16 bits). -/
structure TFile where
  cfg : Cfg
  volt : Word
  id : Word
  deriving DecidableEq, Repr, Inhabited

/-- The byte buffer `B` (10_state.md R12): `b0` is the first byte on the wire, image bits 15 to 8. -/
structure ByteBuf where
  b0 : Byte
  b1 : Byte
  deriving DecidableEq, Repr, Inhabited

/-- `RES.status` (10_state.md R13, 60_exceptions.md R131); its 3-bit code is `Status.code`. -/
inductive Status where
  | ok | transportError | decodeError | encodeError | illegalCommand
  deriving DecidableEq, Repr, Inhabited

/-- The result registers `RES` (10_state.md R13). -/
structure Res where
  status : Status
  data : Word
  terr : Option TErr
  deriving DecidableEq, Repr, Inhabited

/-! ## The history of the bus -/

/-- One transaction the engine asked for (10_state.md R15): direction, device address, register pointer, bytes, outcome. A failed
write records the bytes handed over and the phase (log entry 15, DEDUCED, safe). -/
inductive BusEntry where
  | read (dev : BitVec 7) (ptr : Byte) (answer : ReadAnswer)
  | write (dev : BitVec 7) (ptr : Byte) (b0 b1 : Byte) (answer : WriteAnswer)
  deriving DecidableEq, Repr

/-! ## The world outside the engine: transport, device, other bus actors -/

/-- Which of the two oracles of the specification stands in for transport and device: the unconstrained one (20_memory.md R43),
under which claims about the chip are made, or the ideal-device stub (R44), under which the test vectors are written. -/
inductive Oracle where
  | unconstrained | ideal
  deriving DecidableEq, Repr, Inhabited

/-- A write to a device register by another bus actor (20_memory.md R40). -/
structure ActorWrite where
  ptr : Byte
  image : Word
  deriving DecidableEq, Repr, Inhabited

/-- What the outside is told to do at one transaction: what other actors write before it (20_memory.md R40), whether the
transport fails it and how (R44: "unless a vector says so"), whether it never answers (R45). The phase counts for a write only.
The all-default turn leaves everything to the oracle. -/
structure Turn where
  before : List ActorWrite := []
  failure : Option (Phase × TErr) := none
  silent : Bool := false
  deriving DecidableEq, Repr, Inhabited

/-- The device's register space as a list of (address, byte) pairs in one canonical form: addresses strictly rising. Register
pointer `p` is bytes `2p` (the first on the wire) and `2p + 1`; a byte not listed has no value (log entry 3, DESIGN CHOICE,
safe). -/
abbrev Memory := List Host.Cell

/-- Everything outside the engine (00_scope.md R5, agents 3 to 5). -/
structure World where
  /-- The oracle in force, constant for a run (log entry 2, DESIGN CHOICE, unsafe for runs from reset). -/
  oracle : Oracle
  /-- The turns of the coming transactions, the next first; past its end every turn is the default one (log entry 2). -/
  script : List Turn
  /-- The model's own: which free values the next transaction draws (log entry 1, DESIGN CHOICE, safe). -/
  draws : Nat
  /-- `DEV` of the ideal device (20_memory.md R44). -/
  dev : Memory
  /-- The device's register pointer (10_state.md R27): set at the start of every transaction, read by no rule. -/
  ptr : Byte
  deriving DecidableEq, Repr

/-! ## The host -/

/-- What the host presents to the engine (00_scope.md R5, 70_reset_and_hazards.md R150). -/
inductive HostInput where
  /-- A command word. -/
  | command (c : CmdWord)
  /-- A pulse of the engine's own reset (R150 a). -/
  | engineReset
  deriving DecidableEq, Repr

/-! ## The machine -/

/-- The whole machine. -/
structure State where
  /-- The typed value file `T` (10_state.md R11). -/
  t : TFile
  /-- The byte buffer `B` (10_state.md R12). -/
  b : ByteBuf
  /-- The result registers `RES` (10_state.md R13). -/
  res : Res
  /-- `BUSLOG`, oldest entry first (10_state.md R15). -/
  buslog : List BusEntry
  /-- `A_SEL`, the device selector strap, constant for a run (10_state.md R16). -/
  aSel : BitVec 2
  /-- Transport, device and other bus actors (10_state.md R27). -/
  world : World
  /-- What the host has yet to present, in order (10_state.md R14). -/
  pending : List HostInput
  /-- The host's position: how many commands have ended (10_state.md R14). -/
  pos : Nat
  deriving DecidableEq, Repr

/-- Why a step can stop for good. -/
inductive Fault where
  /-- Raised by `RD`, `WR`, `MODF` when the transport never answers a transaction: the command never completes and the engine
  accepts no other (20_memory.md R45, 93_implementation_defined.md U9 "stuck"; log entry 9, DEDUCED). Safe: the machine stops
  where the hardware hangs. -/
  | transportSilent
  deriving DecidableEq, Repr

/-- Why a step can be refused. -/
inductive Refusal where
  /-- Raised by `exec` for an instruction that has no meaning yet; no arm of this model does. Safe: the machine stops. -/
  | notModelled (mnemonic : String)
  deriving DecidableEq, Repr

/-- The outcome of a command or a step. -/
abbrev Out := Host.Outcome State Fault Refusal

/-! ## The part of the state a transaction touches -/

/-- The world outside and the history of the transactions asked of it (20_memory.md R31). -/
structure Bus where
  world : World
  log : List BusEntry
  deriving DecidableEq, Repr

/-- The bus side of a state. -/
def State.bus (s : State) : Bus := ⟨s.world, s.buslog⟩

/-! ## Reset -/

/-- The machine right after reset (10_state.md R28, 70_reset_and_hazards.md R151). `A_SEL` (log entry 5), the device's register
pointer (log entry 6), the world's oracle and script (log entry 2) and the host's program (log entry 8) have no reset value
in the specification: their values here are the model's (DESIGN CHOICE, unsafe). -/
def State.reset : State where
  t :=
    { cfg :=
        { rst := false
          en1 := defaultEn.getLsbD 2
          en2 := defaultEn.getLsbD 1
          en3 := defaultEn.getLsbD 0
          avg := .avg1
          bct := .ct1100us
          sct := .ct1100us
          mode := .shuntBusContinuous }
      volt := 0x0000
      id := 0x0000 }
  b := ⟨0x00, 0x00⟩
  res := ⟨.ok, 0x0000, none⟩
  buslog := []
  aSel := 0
  world := { oracle := .unconstrained, script := [], draws := 0, dev := [], ptr := 0x00 }
  pending := []
  pos := 0

end Sys2Proof.Machine
end

