-- ==== Sys2Proof/Machine/Flags.lean ====
section
/-! DEFINITION. The one status flag of the engine, `RES.status`, with its codes (60_exceptions.md R131), and the whole of `RES` for
an OK end and for an error. There are no condition codes (10_state.md R13). -/

namespace Sys2Proof.Machine

/-- The 3-bit code of a status (60_exceptions.md R131); 5 to 7 are never produced. -/
def statusCode : Status → BitVec 3
  | .ok => 0
  | .transportError => 1
  | .decodeError => 2
  | .encodeError => 3
  | .illegalCommand => 4

/-- The four errors (60_exceptions.md R130): three of the source's taxonomy, and IllegalCommand. Only TransportError carries a
cause. -/
inductive Err where
  | transport (e : TErr)
  | decode
  | encode
  | illegal
  deriving DecidableEq, Repr

/-- The status an error reports (60_exceptions.md R131). -/
def errStatus : Err → Status
  | .transport _ => .transportError
  | .decode => .decodeError
  | .encode => .encodeError
  | .illegal => .illegalCommand

/-- The cause recorded in `RES.terr`: TransportError's own, unchanged; none for the others (60_exceptions.md R131, R132). -/
def errCause : Err → Option TErr
  | .transport e => some e
  | .decode => none
  | .encode => none
  | .illegal => none

/-- `RES` of a command that completed with data `d` (00_scope.md section 6, `ok(d)`). -/
def okRes (d : Word) : Res := ⟨.ok, d, none⟩

/-- `RES` of a command that ended with an error: `data` is 0 (60_exceptions.md R131). -/
def errRes (e : Err) : Res := ⟨errStatus e, 0x0000, errCause e⟩

end Sys2Proof.Machine
end

