-- ==== Sys2Proof/Machine/Codec.lean ====
section
/-! DEFINITION. The Register Layout Table (40_codec.md): the field primitives, the enumeration tables, the position of every
field, the fixed address of every kind, and the encode/decode pair of each of the three layout classes. -/

namespace Sys2Proof.Machine

/-! ## Byte order (20_memory.md R33) -/

/-- `W[15:8]`, the first byte on the wire. -/
def hiByte (W : Word) : Byte := W.extractLsb' 8 8

/-- `W[7:0]`, the second byte on the wire. -/
def loByte (W : Word) : Byte := W.extractLsb' 0 8

/-- `b0 ∥ b1`: the image whose bytes arrive in this order. -/
def image (b0 b1 : Byte) : Word := b0 ++ b1

/-- The buffer that holds an image (10_state.md R12). -/
def bytesOf (W : Word) : ByteBuf := ⟨hiByte W, loByte W⟩

/-- `Bw`, the image the buffer holds (10_state.md R12). -/
def bufImage (b : ByteBuf) : Word := image b.b0 b.b1

/-! ## The field primitives (40_codec.md R61, R62) -/

/-- `2^w - 1` on 16 bits. -/
def lowMask (w : Nat) : Word := BitVec.ofNat 16 (2 ^ w - 1)

/-- `extract(W, s, w)`: the bits `[s+w-1 : s]` of `W` as an unsigned value (R61). -/
def extractBits (W : Word) (s w : Nat) : Word := (W >>> s) &&& lowMask w

/-- `insert(W, s, w, v)`: `W` outside the bits `[s+w-1 : s]`, the low `w` bits of `v` inside them (R62). -/
def insertBits (W : Word) (s w : Nat) (v : Word) : Word := (W &&& ~~~(lowMask w <<< s)) ||| ((v &&& lowMask w) <<< s)

/-! ## Interpretations (R63 to R66) -/

/-- Packing a flag (R63). -/
def packFlag (b : Bool) : Word := if b then 1 else 0

/-- Unpacking a flag (R63). -/
def unpackFlag (u : Word) : Bool := u.getLsbD 0

/-- `sext_16` of a 13-bit pattern (R65): the container of the signed fields is 16 bits. -/
def sext13 (u : Word) : Word := (u.setWidth 13).signExtend 16

/-- `enum_enc`: the code of a variant in a table, if the table gives it one (R66, R134). -/
def enumEnc {V : Type} [DecidableEq V] (table : List (V × Word)) (v : V) : Option Word :=
  (table.find? fun row => row.1 = v).map (·.2)

/-- `enum_dec`: the variant whose code is `c`, or no variant (R66). -/
def enumDec {V : Type} (table : List (V × Word)) (c : Word) : Option V :=
  (table.find? fun row => row.2 = c).map (·.1)

/-- Mode's codes (10_state.md R22). -/
def modeTable : List (Mode × Word) :=
  [(.powerDown, 0b000), (.shuntVoltSingle, 0b001), (.busVoltSingle, 0b010), (.shuntBusSingle, 0b011),
   (.reserved4, 0b100), (.shuntVoltContinuous, 0b101), (.busVoltContinuous, 0b110), (.shuntBusContinuous, 0b111)]

/-- ConversionTime's codes (10_state.md R23). -/
def convTimeTable : List (ConversionTime × Word) :=
  [(.ct140us, 0), (.ct204us, 1), (.ct332us, 2), (.ct588us, 3),
   (.ct1100us, 4), (.ct2116us, 5), (.ct4156us, 6), (.ct8244us, 7)]

/-- Averages' codes (10_state.md R24). -/
def averagesTable : List (Averages × Word) :=
  [(.avg1, 0), (.avg4, 1), (.avg16, 2), (.avg64, 3), (.avg128, 4), (.avg256, 5), (.avg512, 6), (.avg1024, 7)]

/-- The physical value of a conversion time, in microseconds (10_state.md R23): of the device, not a timing of the engine. -/
def microseconds : ConversionTime → Nat
  | .ct140us => 140
  | .ct204us => 204
  | .ct332us => 332
  | .ct588us => 588
  | .ct1100us => 1100
  | .ct2116us => 2116
  | .ct4156us => 4156
  | .ct8244us => 8244

/-- The number of samples averaged (10_state.md R24). -/
def samples : Averages → Nat
  | .avg1 => 1
  | .avg4 => 4
  | .avg16 => 16
  | .avg64 => 64
  | .avg128 => 128
  | .avg256 => 256
  | .avg512 => 512
  | .avg1024 => 1024

/-! ## Kinds and fields (10_state.md R18 to R21) -/

/-- `address(k)`: the fixed 8-bit address of a kind (10_state.md R18). -/
def address : Kind → Byte
  | .cfg => 0x00
  | .sv1 => 0x01
  | .bv1 => 0x02
  | .sv2 => 0x03
  | .bv2 => 0x04
  | .sv3 => 0x05
  | .bv3 => 0x06
  | .mid => 0xFE
  | .did => 0xFF

/-- The layout class of a kind (10_state.md R18). -/
def layoutOf : Kind → Layout
  | .cfg => .cfg
  | .sv1 => .volt
  | .bv1 => .volt
  | .sv2 => .volt
  | .bv2 => .volt
  | .sv3 => .volt
  | .bv3 => .volt
  | .mid => .id
  | .did => .id

/-- How a field's bits are read (40_codec.md R60). -/
inductive Interp where
  | flag | unsigned | signed | averages | convTime | mode
  deriving DecidableEq, Repr

/-- A field: start bit, width, interpretation (40_codec.md R60). -/
structure FieldSpec where
  start : Nat
  width : Nat
  interp : Interp
  deriving DecidableEq, Repr

/-- The position and interpretation of every field (10_state.md R19, R20, R21). -/
def fieldSpec : Field → FieldSpec
  | .rst => ⟨15, 1, .flag⟩
  | .en1 => ⟨14, 1, .flag⟩
  | .en2 => ⟨13, 1, .flag⟩
  | .en3 => ⟨12, 1, .flag⟩
  | .avg => ⟨9, 3, .averages⟩
  | .bct => ⟨6, 3, .convTime⟩
  | .sct => ⟨3, 3, .convTime⟩
  | .mode => ⟨0, 3, .mode⟩
  | .volt => ⟨3, 13, .signed⟩
  | .id => ⟨0, 16, .unsigned⟩

/-- `extract` at a field's position. -/
def extractField (f : Field) (W : Word) : Word := extractBits W (fieldSpec f).start (fieldSpec f).width

/-- `insert` at a field's position. -/
def insertField (f : Field) (v : Word) (W : Word) : Word := insertBits W (fieldSpec f).start (fieldSpec f).width v

/-! ## The three layout classes (40_codec.md R67 to R73) -/

/-- `encode_CFG`: from 0x0000, one `insert` per field (R67, R68); EncodeError if an enumeration has no code for its variant
(R134). -/
def encodeCfg (c : Cfg) : Except Err Word :=
  match enumEnc averagesTable c.avg, enumEnc convTimeTable c.bct, enumEnc convTimeTable c.sct, enumEnc modeTable c.mode with
  | some avg, some bct, some sct, some mode =>
    .ok (insertField .mode mode (insertField .sct sct (insertField .bct bct (insertField .avg avg
      (insertField .en3 (packFlag c.en3) (insertField .en2 (packFlag c.en2) (insertField .en1 (packFlag c.en1)
        (insertField .rst (packFlag c.rst) 0x0000))))))))
  | _, _, _, _ => .error .encode

/-- `decode_CFG`: one `extract` per field and its interpretation (R67, R69); DecodeError if any enumeration code has no
variant (R133). -/
def decodeCfg (W : Word) : Except Err Cfg :=
  match enumDec averagesTable (extractField .avg W), enumDec convTimeTable (extractField .bct W),
      enumDec convTimeTable (extractField .sct W), enumDec modeTable (extractField .mode W) with
  | some avg, some bct, some sct, some mode =>
    .ok { rst := unpackFlag (extractField .rst W)
          en1 := unpackFlag (extractField .en1 W)
          en2 := unpackFlag (extractField .en2 W)
          en3 := unpackFlag (extractField .en3 W)
          avg := avg
          bct := bct
          sct := sct
          mode := mode }
  | _, _, _, _ => .error .decode

/-- `encode_VOLT`: the low 13 bits of the cell in bits [15:3], bits [2:0] zero (R70). -/
def encodeVolt (v : Word) : Word := insertField .volt v 0x0000

/-- `decode_VOLT`: bits [15:3] sign-extended to 16, bits [2:0] ignored (R71). -/
def decodeVolt (W : Word) : Word := sext13 (extractField .volt W)

/-- `encode_ID` (R72). -/
def encodeId (v : Word) : Word := insertField .id v 0x0000

/-- `decode_ID` (R73). -/
def decodeId (W : Word) : Word := extractField .id W

/-- The typed values of a layout class: the cells of `T` that its kinds read and write. -/
def LayoutVal : Layout → Type
  | .cfg => Cfg
  | .volt => Word
  | .id => Word

/-- The typed values of a kind. -/
abbrev KindVal (k : Kind) : Type := LayoutVal (layoutOf k)

/-- `encode` of a layout class: a 16-bit image or EncodeError (R67). -/
def encodeLayout : (l : Layout) → LayoutVal l → Except Err Word
  | .cfg, c => encodeCfg c
  | .volt, v => .ok (encodeVolt v)
  | .id, v => .ok (encodeId v)

/-- `decode` of a layout class: a typed value or DecodeError (R67). -/
def decodeLayout : (l : Layout) → Word → Except Err (LayoutVal l)
  | .cfg, W => decodeCfg W
  | .volt, W => .ok (decodeVolt W)
  | .id, W => .ok (decodeId W)

/-- `encode_k`. -/
def encodeKind (k : Kind) (v : KindVal k) : Except Err Word := encodeLayout (layoutOf k) v

/-- `decode_k`. -/
def decodeKind (k : Kind) (W : Word) : Except Err (KindVal k) := decodeLayout (layoutOf k) W

end Sys2Proof.Machine
end

