-- ==== Sys2Proof/Machine/Operands.lean ====
section
/-! DEFINITION. Every operand form: the cells of `T` as patterns at the port (41_operand_commands.md R90, R91), the clipping of
immediates (30_encoding.md R55), the cells that belong to a kind (10_state.md R11), the default values (R26), and the
assembler's immediates (30_encoding.md R57). -/

namespace Sys2Proof.Machine

/-! ## Ordinals: how a variant looks at the port (10_state.md R11) -/

/-- The ordinal of a Mode variant (10_state.md R22). -/
def modeOrdinal : Mode → Word
  | .powerDown => 0
  | .shuntVoltSingle => 1
  | .busVoltSingle => 2
  | .shuntBusSingle => 3
  | .reserved4 => 4
  | .shuntVoltContinuous => 5
  | .busVoltContinuous => 6
  | .shuntBusContinuous => 7

/-- The ordinal of a ConversionTime variant (10_state.md R23). -/
def convTimeOrdinal : ConversionTime → Word
  | .ct140us => 0
  | .ct204us => 1
  | .ct332us => 2
  | .ct588us => 3
  | .ct1100us => 4
  | .ct2116us => 5
  | .ct4156us => 6
  | .ct8244us => 7

/-- The ordinal of an Averages variant (10_state.md R24). -/
def averagesOrdinal : Averages → Word
  | .avg1 => 0
  | .avg4 => 1
  | .avg16 => 2
  | .avg64 => 3
  | .avg128 => 4
  | .avg256 => 5
  | .avg512 => 6
  | .avg1024 => 7

/-- The Mode variant whose ordinal is the low three bits of a pattern. -/
def modeOf (v : Word) : Mode :=
  match v.toNat % 8 with
  | 0 => .powerDown
  | 1 => .shuntVoltSingle
  | 2 => .busVoltSingle
  | 3 => .shuntBusSingle
  | 4 => .reserved4
  | 5 => .shuntVoltContinuous
  | 6 => .busVoltContinuous
  | _ => .shuntBusContinuous

/-- The ConversionTime variant whose ordinal is the low three bits of a pattern. -/
def convTimeOf (v : Word) : ConversionTime :=
  match v.toNat % 8 with
  | 0 => .ct140us
  | 1 => .ct204us
  | 2 => .ct332us
  | 3 => .ct588us
  | 4 => .ct1100us
  | 5 => .ct2116us
  | 6 => .ct4156us
  | _ => .ct8244us

/-- The Averages variant whose ordinal is the low three bits of a pattern. -/
def averagesOf (v : Word) : Averages :=
  match v.toNat % 8 with
  | 0 => .avg1
  | 1 => .avg4
  | 2 => .avg16
  | 3 => .avg64
  | 4 => .avg128
  | 5 => .avg256
  | 6 => .avg512
  | _ => .avg1024

/-! ## Cells as patterns -/

/-- `clip_f(imm)` as a 16-bit pattern (30_encoding.md R55): bit 0 of a flag, bits [2:0] of an enumeration, `sext_16(imm[12:0])`
of `volt`, all 16 bits of `id`. -/
def clip : Field → Word → Word
  | .rst, imm => imm &&& 0x0001
  | .en1, imm => imm &&& 0x0001
  | .en2, imm => imm &&& 0x0001
  | .en3, imm => imm &&& 0x0001
  | .avg, imm => imm &&& 0x0007
  | .bct, imm => imm &&& 0x0007
  | .sct, imm => imm &&& 0x0007
  | .mode, imm => imm &&& 0x0007
  | .volt, imm => sext13 imm
  | .id, imm => imm

/-- A Configuration cell takes the pattern `v` (10_state.md R11). A field of another layout class is no cell of it. -/
def cfgPut (f : Field) (v : Word) (c : Cfg) : Cfg :=
  match f with
  | .rst => { c with rst := unpackFlag v }
  | .en1 => { c with en1 := unpackFlag v }
  | .en2 => { c with en2 := unpackFlag v }
  | .en3 => { c with en3 := unpackFlag v }
  | .avg => { c with avg := averagesOf v }
  | .bct => { c with bct := convTimeOf v }
  | .sct => { c with sct := convTimeOf v }
  | .mode => { c with mode := modeOf v }
  | .volt => c
  | .id => c

/-- `T.f <- v` for a pattern `v`; every other cell is kept (41_operand_commands.md R90). -/
def cellPut (f : Field) (v : Word) (t : TFile) : TFile :=
  match f with
  | .volt => { t with volt := v }
  | .id => { t with id := v }
  | .rst => { t with cfg := cfgPut .rst v t.cfg }
  | .en1 => { t with cfg := cfgPut .en1 v t.cfg }
  | .en2 => { t with cfg := cfgPut .en2 v t.cfg }
  | .en3 => { t with cfg := cfgPut .en3 v t.cfg }
  | .avg => { t with cfg := cfgPut .avg v t.cfg }
  | .bct => { t with cfg := cfgPut .bct v t.cfg }
  | .sct => { t with cfg := cfgPut .sct v t.cfg }
  | .mode => { t with cfg := cfgPut .mode v t.cfg }

/-- The cell `T.f` as a 16-bit pattern: zero-extended flag, ordinal or identifier; `volt` as it stands
(41_operand_commands.md R91). -/
def cellGet (f : Field) (t : TFile) : Word :=
  match f with
  | .rst => packFlag t.cfg.rst
  | .en1 => packFlag t.cfg.en1
  | .en2 => packFlag t.cfg.en2
  | .en3 => packFlag t.cfg.en3
  | .avg => averagesOrdinal t.cfg.avg
  | .bct => convTimeOrdinal t.cfg.bct
  | .sct => convTimeOrdinal t.cfg.sct
  | .mode => modeOrdinal t.cfg.mode
  | .volt => t.volt
  | .id => t.id

/-! ## The cells of a kind (10_state.md R11, last column) -/

/-- The cells of a layout class, read from `T`. -/
def layoutGet : (l : Layout) → TFile → LayoutVal l
  | .cfg, t => t.cfg
  | .volt, t => t.volt
  | .id, t => t.id

/-- The cells of a layout class, written to `T`; the others are kept. -/
def layoutPut : (l : Layout) → LayoutVal l → TFile → TFile
  | .cfg, c, t => { t with cfg := c }
  | .volt, v, t => { t with volt := v }
  | .id, v, t => { t with id := v }

/-- `T.<cells of k>`. -/
def kindGet (k : Kind) (t : TFile) : KindVal k := layoutGet (layoutOf k) t

/-- `T.<cells of k> <- v`. -/
def kindPut (k : Kind) (v : KindVal k) (t : TFile) : TFile := layoutPut (layoutOf k) v t

/-- A typed value with the field `f` replaced by the pattern `v`, every other field kept (42_access_protocol.md R103). -/
def layoutSet : (l : Layout) → Field → Word → LayoutVal l → LayoutVal l
  | .cfg, f, v, c => cfgPut f v c
  | .volt, f, v, x => if f = .volt then v else x
  | .id, f, v, x => if f = .id then v else x

/-- The function `MODF` applies: field `f` becomes `clip_f(imm)` (42_access_protocol.md R103). -/
def kindSet (k : Kind) (f : Field) (imm : Word) (v : KindVal k) : KindVal k := layoutSet (layoutOf k) f (clip f imm) v

/-! ## Default values (10_state.md R26) -/

/-- The default Configuration for a value of `DEFAULT_EN`. -/
def defaultCfg (en : BitVec 3) : Cfg :=
  { rst := false
    en1 := en.getLsbD 2
    en2 := en.getLsbD 1
    en3 := en.getLsbD 0
    avg := .avg1
    bct := .ct1100us
    sct := .ct1100us
    mode := .shuntBusContinuous }

/-- The default of a layout class. -/
def layoutDefault : (l : Layout) → LayoutVal l
  | .cfg => defaultCfg defaultEn
  | .volt => (0x0000 : Word)
  | .id => (0x0000 : Word)

/-- `default_k`. -/
def kindDefault (k : Kind) : KindVal k := layoutDefault (layoutOf k)

/-! ## The legal content of a voltage cell (10_state.md R11) -/

/-- `T.volt` holds `sext_16` of a 13-bit value: bits [15:13] copy bit 12. -/
def voltLegal (v : Word) : Bool := v == sext13 v

/-! ## The assembler's immediates (30_encoding.md R57) -/

/-- The 16 bits an immediate stands for: a number is itself, a signed decimal its low 16 bits of two's complement, a variant
name its ordinal. -/
def immBits : ImmText → Word
  | .num n => BitVec.ofNat 16 n
  | .signed x => BitVec.ofInt 16 x
  | .mode m => modeOrdinal m
  | .convTime c => convTimeOrdinal c
  | .averages a => averagesOrdinal a

end Sys2Proof.Machine
end

