-- ==== Sys2Proof/Machine/Ops.lean ====
section
/-! DEFINITION. The named operations over the machine: the device's register space, the two transport primitives
(20_memory.md R31), the end of a command (`ok`, and `raise`, the one way an error is taken, 60_exceptions.md R138), the generic
read-modify-write (42_access_protocol.md R102) and the engine's own reset (70_reset_and_hazards.md R150). There is no return
from an error (60_exceptions.md R139). -/

namespace Sys2Proof.Machine

/-! ## The device's register space as bytes in wire order -/

/-- The byte listed at an address, if any. -/
def memRead? : Memory → Nat → Option Byte
  | [], _ => none
  | (x, v) :: m, a => if x = a then some v else memRead? m a

/-- Writing one byte keeps the addresses strictly rising. -/
def memSet : Memory → Nat → Byte → Memory
  | [], a, b => [(a, b)]
  | (x, v) :: m, a, b =>
    if a < x then (a, b) :: (x, v) :: m
    else if a = x then (a, b) :: m
    else (x, v) :: memSet m a b

/-- The addresses rise strictly from above `lo`, and lie in the register space: 256 registers of two bytes (20_memory.md R30). -/
def memRising : Nat → Memory → Bool
  | _, [] => true
  | lo, (x, _) :: m => lo ≤ x && x < 512 && memRising (x + 1) m

/-- The canonical form of the device's register space. -/
def memWf (m : Memory) : Bool := memRising 0 m

/-- Where the register at pointer `p` keeps its first byte on the wire. -/
def hiAddr (p : Byte) : Nat := 2 * p.toNat

/-- Where the register at pointer `p` keeps its second byte. -/
def loAddr (p : Byte) : Nat := 2 * p.toNat + 1

/-- `DEV[p] <- W`: both bytes, big-endian (20_memory.md R33, R44). -/
def devWrite (m : Memory) (p : Byte) (W : Word) : Memory := memSet (memSet m (hiAddr p) (hiByte W)) (loAddr p) (loByte W)

/-- What the stub answers for a byte: its content, or a free value where the content is unspecified (10_state.md R28; log
entry 3). -/
def devByteAt (m : Memory) (a : Nat) : Byte := (memRead? m a).getD (Config.devByte a)

/-! ## The world at one transaction -/

/-- The turn of the next transaction. -/
def nextTurn (w : World) : Turn := w.script.headD {}

/-- The writes of other bus actors before the next transaction have happened (20_memory.md R40). -/
def arrive (w : World) : World :=
  { w with dev := (nextTurn w).before.foldl (fun m a => devWrite m a.ptr a.image) w.dev }

/-- What the transport answers to a read of pointer `p` (20_memory.md R43, R44); the stub gives both bytes of one moment (log
entry 16, DESIGN CHOICE, unsafe if read as the chip). -/
def readAnswer (w : World) (p : Byte) : ReadAnswer :=
  match (nextTurn w).failure with
  | some (_, e) => .failed e
  | none =>
    match w.oracle with
    | .unconstrained => Config.readAnswer w.draws
    | .ideal => .bytes (devByteAt w.dev (hiAddr p)) (devByteAt w.dev (loAddr p))

/-- What the transport answers to a write (20_memory.md R35, R43, R44). -/
def writeAnswer (w : World) : WriteAnswer :=
  match (nextTurn w).failure with
  | some (ph, e) => .failed ph e
  | none =>
    match w.oracle with
    | .unconstrained => Config.writeAnswer w.draws
    | .ideal => .success

/-- The device's register pointer after a transaction: `p` on the stub if it succeeded, else unspecified (10_state.md R27, 93 U7). -/
def pointerAfter (w : World) (p : Byte) (succeeded : Bool) : Byte :=
  match w.oracle with
  | .unconstrained => Config.devPointer w.draws
  | .ideal => if succeeded then p else Config.devPointer w.draws

/-- The world after a read: registers unchanged (20_memory.md R44; under R43 they are not consulted). -/
def afterRead (w : World) (p : Byte) (a : ReadAnswer) : World :=
  let succeeded :=
    match a with
    | .bytes _ _ => true
    | .failed _ => false
  { w with script := w.script.tail, draws := w.draws + 1, ptr := pointerAfter w p succeeded }

/-- The stub's registers after a write: the image, or a draw over all images if the write failed (20_memory.md R36, R44). -/
def devAfterWrite (w : World) (p : Byte) (W : Word) (a : WriteAnswer) : Memory :=
  match w.oracle with
  | .unconstrained => w.dev
  | .ideal =>
    match a with
    | .success => devWrite w.dev p W
    | .failed _ _ => devWrite w.dev p (Config.devWord w.draws)

/-- The world after a write. -/
def afterWrite (w : World) (p : Byte) (W : Word) (a : WriteAnswer) : World :=
  let succeeded :=
    match a with
    | .success => true
    | .failed _ _ => false
  { w with script := w.script.tail, draws := w.draws + 1, dev := devAfterWrite w p W a, ptr := pointerAfter w p succeeded }

/-! ## The transport primitives (20_memory.md R31) -/

/-- `MemRead(p, 2)`: one read transaction to `DEVADDR[sel]`, one entry of `BUSLOG`. -/
def memRead (sel : BitVec 2) (p : Byte) (bus : Bus) : ReadAnswer × Bus :=
  let w := arrive bus.world
  let a := readAnswer w p
  (a, ⟨afterRead w p a, bus.log ++ [.read (Config.devAddr sel) p a]⟩)

/-- `MemWrite(p, 2, [W[15:8], W[7:0]])`: one write transaction to `DEVADDR[sel]`, one entry of `BUSLOG`. -/
def memWrite (sel : BitVec 2) (p : Byte) (W : Word) (bus : Bus) : WriteAnswer × Bus :=
  let w := arrive bus.world
  let a := writeAnswer w
  (a, ⟨afterWrite w p W a, bus.log ++ [.write (Config.devAddr sel) p (hiByte W) (loByte W) a]⟩)

/-- Whether the data phase of a write was issued (20_memory.md R35): not after a failed pointer-set phase, with
`WR_POINTER_CHECK`. -/
def dataPhaseIssued : WriteAnswer → Bool
  | .success => true
  | .failed .dataWrite _ => true
  | .failed .pointerSet _ => !wrPointerCheck

/-- The transport never answers the `n`th coming transaction (20_memory.md R45). -/
def silentAt (n : Nat) (s : State) : Bool :=
  match s.world.script[n]? with
  | some turn => turn.silent
  | none => false

/-! ## The end of a command -/

/-- What a command that completes leaves: `T`, `B` and `RES.data`. -/
structure Success where
  t : TFile
  b : ByteBuf
  data : Word
  deriving DecidableEq, Repr

/-- `T` after a command: the one it leaves, or the one before it if it ended with an error (60_exceptions.md R138). -/
def settledT (r : Except Err Success) (t : TFile) : TFile :=
  match r with
  | .ok d => d.t
  | .error _ => t

/-- `B` after a command, likewise (60_exceptions.md R138). -/
def settledB (r : Except Err Success) (b : ByteBuf) : ByteBuf :=
  match r with
  | .ok d => d.b
  | .error _ => b

/-- `RES` after a command, written whole (10_state.md R13). -/
def settledRes (r : Except Err Success) : Res :=
  match r with
  | .ok d => okRes d.data
  | .error e => errRes e

/-- The end of every command, and the one way an error is taken: on success `T`, `B` and `RES` as the command leaves them; on an
error only `RES` (60_exceptions.md R138). What the transactions did to the world stays done in both cases. -/
def settle (r : Except Err Success) (bus : Bus) (s : State) : State :=
  { s with t := settledT r s.t, b := settledB r s.b, res := settledRes r, world := bus.world, buslog := bus.log }

/-- `ok(d)` of a command that writes nothing but `RES` (00_scope.md section 6). -/
def okWith (d : Word) (s : State) : State := settle (.ok ⟨s.t, s.b, d⟩) s.bus s

/-- `raise e` outside any transaction: taking an error. There is nothing to save and nowhere to go (60_exceptions.md R138). -/
def raise (e : Err) (s : State) : State := settle (.error e) s.bus s

/-! ## The generic read-modify-write (42_access_protocol.md R102) -/

/-- `modify_k(f)`: the value written and its image, or the first error, and the bus after the transactions it issued. `T`, `B`
and `RES` are its caller's to write. -/
def modifyRegister (sel : BitVec 2) (k : Kind) (f : KindVal k → KindVal k) (bus : Bus) : Except Err (KindVal k × Word) × Bus :=
  match memRead sel (address k) bus with
  | (.failed e, bus1) => (.error (.transport e), bus1)
  | (.bytes r0 r1, bus1) =>
    match decodeKind k (image r0 r1) with
    | .error e => (.error e, bus1)
    | .ok v =>
      match encodeKind k (f v) with
      | .error e => (.error e, bus1)
      | .ok W =>
        match memWrite sel (address k) W bus1 with
        | (.failed _ e, bus2) => (.error (.transport e), bus2)
        | (.success, bus2) => (.ok (f v, W), bus2)

/-- Whether `modify_k(f)` gets as far as its write transaction. -/
def reachesWrite (sel : BitVec 2) (k : Kind) (f : KindVal k → KindVal k) (bus : Bus) : Bool :=
  match (memRead sel (address k) bus).1 with
  | .failed _ => false
  | .bytes r0 r1 =>
    match decodeKind k (image r0 r1) with
    | .error _ => false
    | .ok v =>
      match encodeKind k (f v) with
      | .error _ => false
      | .ok _ => true

/-! ## Engine reset (70_reset_and_hazards.md R150 a, R151) -/

/-- The engine's own reset: `T`, `B`, `RES` as after reset, `BUSLOG` empty, no transaction; the strap, the device and the host
are untouched (10_state.md R28). -/
def engineReset (s : State) : State :=
  { s with t := State.reset.t, b := State.reset.b, res := State.reset.res, buslog := [] }

end Sys2Proof.Machine
end

