-- ==== Sys2Proof/Machine/AccessCommands.lean ====
section
/-! DEFINITION. The meanings of `RD`, `WR`, `MODF` (42_access_protocol.md R100 to R103). A transport that never answers leaves
the engine stuck (20_memory.md R45): the fault `transportSilent`. -/

namespace Sys2Proof.Machine

/-- What `RD k` makes of the transport's answer (42_access_protocol.md R100). -/
def readResult (k : Kind) (t : TFile) : ReadAnswer → Except Err Success
  | .failed e => .error (.transport e)
  | .bytes r0 r1 => (decodeKind k (image r0 r1)).map fun v => ⟨kindPut k v t, ⟨r0, r1⟩, image r0 r1⟩

/-- `RD k` once its transaction has been answered (42_access_protocol.md R100). -/
def readDone (k : Kind) (s : State) : State :=
  let run := memRead s.aSel (address k) s.bus
  settle (readResult k s.t run.1) run.2 s

/-- `RD k` (42_access_protocol.md R100). -/
def readKind (k : Kind) (s : State) : Out :=
  if silentAt 0 s then .fault .transportSilent else .next (readDone k s)

/-- What `WR k` makes of the transport's answer, with `W` the image it sent (42_access_protocol.md R101). -/
def writeResult (W : Word) (t : TFile) : WriteAnswer → Except Err Success
  | .failed _ e => .error (.transport e)
  | .success => .ok ⟨t, bytesOf W, W⟩

/-- `WR k` with image `W` once its transaction has been answered (42_access_protocol.md R101). -/
def writeDone (k : Kind) (W : Word) (s : State) : State :=
  let run := memWrite s.aSel (address k) W s.bus
  settle (writeResult W s.t run.1) run.2 s

/-- `WR k`: encode first; no transaction if that fails (42_access_protocol.md R101). -/
def writeKind (k : Kind) (s : State) : Out :=
  match encodeKind k (kindGet k s.t) with
  | .error e => .next (raise e s)
  | .ok W => if silentAt 0 s then .fault .transportSilent else .next (writeDone k W s)

/-- `MODF k, f, imm` once its transactions have been answered: `modify_k` of "field `f` becomes `clip_f(imm)`"
(42_access_protocol.md R103). -/
def modifyDone (k : Kind) (f : Field) (imm : Word) (s : State) : State :=
  let run := modifyRegister s.aSel k (kindSet k f imm) s.bus
  settle (run.1.map fun p => ⟨kindPut k p.1 s.t, bytesOf p.2, p.2⟩) run.2 s

/-- `MODF k, f, imm` (42_access_protocol.md R103). It hangs if its read is never answered, or if it reaches its write and
that is never answered (20_memory.md R45). -/
def modifyField (k : Kind) (f : Field) (imm : Word) (s : State) : Out :=
  if silentAt 0 s then .fault .transportSilent
  else if silentAt 1 s && reachesWrite s.aSel k (kindSet k f imm) s.bus then .fault .transportSilent
  else .next (modifyDone k f imm s)

/-- `RD_CFG`, word 0x90000000 (R100). -/
def execRdCfg (s : State) : Out := readKind .cfg s

/-- `RD_SV1`, word 0x91000000 (R100). -/
def execRdSv1 (s : State) : Out := readKind .sv1 s

/-- `RD_BV1`, word 0x92000000 (R100). -/
def execRdBv1 (s : State) : Out := readKind .bv1 s

/-- `RD_SV2`, word 0x93000000 (R100). -/
def execRdSv2 (s : State) : Out := readKind .sv2 s

/-- `RD_BV2`, word 0x94000000 (R100). -/
def execRdBv2 (s : State) : Out := readKind .bv2 s

/-- `RD_SV3`, word 0x95000000 (R100). -/
def execRdSv3 (s : State) : Out := readKind .sv3 s

/-- `RD_BV3`, word 0x96000000 (R100). -/
def execRdBv3 (s : State) : Out := readKind .bv3 s

/-- `RD_MID`, word 0x97000000 (R100). -/
def execRdMid (s : State) : Out := readKind .mid s

/-- `RD_DID`, word 0x98000000 (R100). -/
def execRdDid (s : State) : Out := readKind .did s

/-- `WR_CFG`, word 0xA0000000 (R101). -/
def execWrCfg (s : State) : Out := writeKind .cfg s

/-- `WR_SV1`, word 0xA1000000 (R101). -/
def execWrSv1 (s : State) : Out := writeKind .sv1 s

/-- `WR_BV1`, word 0xA2000000 (R101). -/
def execWrBv1 (s : State) : Out := writeKind .bv1 s

/-- `WR_SV2`, word 0xA3000000 (R101). -/
def execWrSv2 (s : State) : Out := writeKind .sv2 s

/-- `WR_BV2`, word 0xA4000000 (R101). -/
def execWrBv2 (s : State) : Out := writeKind .bv2 s

/-- `WR_SV3`, word 0xA5000000 (R101). -/
def execWrSv3 (s : State) : Out := writeKind .sv3 s

/-- `WR_BV3`, word 0xA6000000 (R101). -/
def execWrBv3 (s : State) : Out := writeKind .bv3 s

/-- `WR_MID`, word 0xA7000000 (R101). -/
def execWrMid (s : State) : Out := writeKind .mid s

/-- `WR_DID`, word 0xA8000000 (R101). -/
def execWrDid (s : State) : Out := writeKind .did s

/-- `MODF_CFG__rst__imm`, word 0xB0000000 | imm (R103). -/
def execModfCfgRst (imm : Word) (s : State) : Out := modifyField .cfg .rst imm s

/-- `MODF_CFG__en1__imm`, word 0xB0100000 | imm (R103). -/
def execModfCfgEn1 (imm : Word) (s : State) : Out := modifyField .cfg .en1 imm s

/-- `MODF_CFG__en2__imm`, word 0xB0200000 | imm (R103). -/
def execModfCfgEn2 (imm : Word) (s : State) : Out := modifyField .cfg .en2 imm s

/-- `MODF_CFG__en3__imm`, word 0xB0300000 | imm (R103). -/
def execModfCfgEn3 (imm : Word) (s : State) : Out := modifyField .cfg .en3 imm s

/-- `MODF_CFG__avg__imm`, word 0xB0400000 | imm (R103). -/
def execModfCfgAvg (imm : Word) (s : State) : Out := modifyField .cfg .avg imm s

/-- `MODF_CFG__bct__imm`, word 0xB0500000 | imm (R103). -/
def execModfCfgBct (imm : Word) (s : State) : Out := modifyField .cfg .bct imm s

/-- `MODF_CFG__sct__imm`, word 0xB0600000 | imm (R103). -/
def execModfCfgSct (imm : Word) (s : State) : Out := modifyField .cfg .sct imm s

/-- `MODF_CFG__mode__imm`, word 0xB0700000 | imm (R103). -/
def execModfCfgMode (imm : Word) (s : State) : Out := modifyField .cfg .mode imm s

/-- `MODF_SV1__volt__imm`, word 0xB1800000 | imm (R103). -/
def execModfSv1Volt (imm : Word) (s : State) : Out := modifyField .sv1 .volt imm s

/-- `MODF_BV1__volt__imm`, word 0xB2800000 | imm (R103). -/
def execModfBv1Volt (imm : Word) (s : State) : Out := modifyField .bv1 .volt imm s

/-- `MODF_SV2__volt__imm`, word 0xB3800000 | imm (R103). -/
def execModfSv2Volt (imm : Word) (s : State) : Out := modifyField .sv2 .volt imm s

/-- `MODF_BV2__volt__imm`, word 0xB4800000 | imm (R103). -/
def execModfBv2Volt (imm : Word) (s : State) : Out := modifyField .bv2 .volt imm s

/-- `MODF_SV3__volt__imm`, word 0xB5800000 | imm (R103). -/
def execModfSv3Volt (imm : Word) (s : State) : Out := modifyField .sv3 .volt imm s

/-- `MODF_BV3__volt__imm`, word 0xB6800000 | imm (R103). -/
def execModfBv3Volt (imm : Word) (s : State) : Out := modifyField .bv3 .volt imm s

/-- `MODF_MID__id__imm`, word 0xB7900000 | imm (R103). -/
def execModfMidId (imm : Word) (s : State) : Out := modifyField .mid .id imm s

/-- `MODF_DID__id__imm`, word 0xB8900000 | imm (R103). -/
def execModfDidId (imm : Word) (s : State) : Out := modifyField .did .id imm s

end Sys2Proof.Machine
end

