-- ==== Sys2Proof/Machine/CodecCommands.lean ====
section
/-! DEFINITION. The meanings of `ADDR`, `ENC`, `DEC`, `DFLT` (40_codec.md R76 to R83). None performs a transaction. -/

namespace Sys2Proof.Machine

/-- `ADDR k`: `ok(zext_16(address(k)))` (40_codec.md R76). -/
def addrKind (k : Kind) (s : State) : Out := .next (okWith ((address k).setWidth 16) s)

/-- `ENC k`: encode the cells of `k` into `B`; `ok(W)`; EncodeError is part of the contract (40_codec.md R77 to R79). -/
def encKind (k : Kind) (s : State) : Out :=
  .next (settle ((encodeKind k (kindGet k s.t)).map fun W => ⟨s.t, bytesOf W, W⟩) s.bus s)

/-- `DEC k`: decode `B` into the cells of `k`; `ok(W)`; on DecodeError no cell is written (40_codec.md R80 to R82). -/
def decKind (k : Kind) (s : State) : Out :=
  .next (settle ((decodeKind k (bufImage s.b)).map fun v => ⟨kindPut k v s.t, s.b, bufImage s.b⟩) s.bus s)

/-- `DFLT k`: the cells of `k` take `default_k`; `ok(0)` (40_codec.md R83). -/
def dfltKind (k : Kind) (s : State) : Out := .next (settle (.ok ⟨kindPut k (kindDefault k) s.t, s.b, 0x0000⟩) s.bus s)

/-- `ADDR_CFG`, word 0x10000000 (R76). -/
def execAddrCfg (s : State) : Out := addrKind .cfg s

/-- `ADDR_SV1`, word 0x11000000 (R76). -/
def execAddrSv1 (s : State) : Out := addrKind .sv1 s

/-- `ADDR_BV1`, word 0x12000000 (R76). -/
def execAddrBv1 (s : State) : Out := addrKind .bv1 s

/-- `ADDR_SV2`, word 0x13000000 (R76). -/
def execAddrSv2 (s : State) : Out := addrKind .sv2 s

/-- `ADDR_BV2`, word 0x14000000 (R76). -/
def execAddrBv2 (s : State) : Out := addrKind .bv2 s

/-- `ADDR_SV3`, word 0x15000000 (R76). -/
def execAddrSv3 (s : State) : Out := addrKind .sv3 s

/-- `ADDR_BV3`, word 0x16000000 (R76). -/
def execAddrBv3 (s : State) : Out := addrKind .bv3 s

/-- `ADDR_MID`, word 0x17000000 (R76). -/
def execAddrMid (s : State) : Out := addrKind .mid s

/-- `ADDR_DID`, word 0x18000000 (R76). -/
def execAddrDid (s : State) : Out := addrKind .did s

/-- `ENC_CFG`, word 0x20000000 (R77). -/
def execEncCfg (s : State) : Out := encKind .cfg s

/-- `ENC_SV1`, word 0x21000000 (R78). -/
def execEncSv1 (s : State) : Out := encKind .sv1 s

/-- `ENC_BV1`, word 0x22000000 (R78). -/
def execEncBv1 (s : State) : Out := encKind .bv1 s

/-- `ENC_SV2`, word 0x23000000 (R78). -/
def execEncSv2 (s : State) : Out := encKind .sv2 s

/-- `ENC_BV2`, word 0x24000000 (R78). -/
def execEncBv2 (s : State) : Out := encKind .bv2 s

/-- `ENC_SV3`, word 0x25000000 (R78). -/
def execEncSv3 (s : State) : Out := encKind .sv3 s

/-- `ENC_BV3`, word 0x26000000 (R78). -/
def execEncBv3 (s : State) : Out := encKind .bv3 s

/-- `ENC_MID`, word 0x27000000 (R79). -/
def execEncMid (s : State) : Out := encKind .mid s

/-- `ENC_DID`, word 0x28000000 (R79). -/
def execEncDid (s : State) : Out := encKind .did s

/-- `DEC_CFG`, word 0x30000000 (R80). -/
def execDecCfg (s : State) : Out := decKind .cfg s

/-- `DEC_SV1`, word 0x31000000 (R81). -/
def execDecSv1 (s : State) : Out := decKind .sv1 s

/-- `DEC_BV1`, word 0x32000000 (R81). -/
def execDecBv1 (s : State) : Out := decKind .bv1 s

/-- `DEC_SV2`, word 0x33000000 (R81). -/
def execDecSv2 (s : State) : Out := decKind .sv2 s

/-- `DEC_BV2`, word 0x34000000 (R81). -/
def execDecBv2 (s : State) : Out := decKind .bv2 s

/-- `DEC_SV3`, word 0x35000000 (R81). -/
def execDecSv3 (s : State) : Out := decKind .sv3 s

/-- `DEC_BV3`, word 0x36000000 (R81). -/
def execDecBv3 (s : State) : Out := decKind .bv3 s

/-- `DEC_MID`, word 0x37000000 (R82). -/
def execDecMid (s : State) : Out := decKind .mid s

/-- `DEC_DID`, word 0x38000000 (R82). -/
def execDecDid (s : State) : Out := decKind .did s

/-- `DFLT_CFG`, word 0x40000000 (R83). -/
def execDfltCfg (s : State) : Out := dfltKind .cfg s

/-- `DFLT_SV1`, word 0x41000000 (R83). -/
def execDfltSv1 (s : State) : Out := dfltKind .sv1 s

/-- `DFLT_BV1`, word 0x42000000 (R83). -/
def execDfltBv1 (s : State) : Out := dfltKind .bv1 s

/-- `DFLT_SV2`, word 0x43000000 (R83). -/
def execDfltSv2 (s : State) : Out := dfltKind .sv2 s

/-- `DFLT_BV2`, word 0x44000000 (R83). -/
def execDfltBv2 (s : State) : Out := dfltKind .bv2 s

/-- `DFLT_SV3`, word 0x45000000 (R83). -/
def execDfltSv3 (s : State) : Out := dfltKind .sv3 s

/-- `DFLT_BV3`, word 0x46000000 (R83). -/
def execDfltBv3 (s : State) : Out := dfltKind .bv3 s

/-- `DFLT_MID`, word 0x47000000 (R83). -/
def execDfltMid (s : State) : Out := dfltKind .mid s

/-- `DFLT_DID`, word 0x48000000 (R83). -/
def execDfltDid (s : State) : Out := dfltKind .did s

end Sys2Proof.Machine
end

