-- ==== Sys2Proof/Machine/OperandCommands.lean ====
section
/-! DEFINITION. The meanings of `SETF`, `GETF`, `LDB`, `GETB` (41_operand_commands.md R90 to R93). None performs a
transaction. -/

namespace Sys2Proof.Machine

/-- `SETF f, imm`: `T.f <- clip_f(imm)`; `ok` of the cell (41_operand_commands.md R90). -/
def setField (f : Field) (imm : Word) (s : State) : Out :=
  let t := cellPut f (clip f imm) s.t
  .next (settle (.ok ⟨t, s.b, cellGet f t⟩) s.bus s)

/-- `GETF f`: `ok` of the cell (41_operand_commands.md R91). -/
def getField (f : Field) (s : State) : Out := .next (okWith (cellGet f s.t) s)

/-- `LDB imm`: `B[0] <- imm[15:8]`, `B[1] <- imm[7:0]`, `ok(imm)` (41_operand_commands.md R92). -/
def loadBytes (imm : Word) (s : State) : Out := .next (settle (.ok ⟨s.t, bytesOf imm, imm⟩) s.bus s)

/-- `GETB`: `ok(B[0] ∥ B[1])` (41_operand_commands.md R93). -/
def getBytes (s : State) : Out := .next (okWith (bufImage s.b) s)

/-- `SETF_rst__imm`, word 0x50000000 | imm (R90). -/
def execSetfRst (imm : Word) (s : State) : Out := setField .rst imm s

/-- `SETF_en1__imm`, word 0x50100000 | imm (R90). -/
def execSetfEn1 (imm : Word) (s : State) : Out := setField .en1 imm s

/-- `SETF_en2__imm`, word 0x50200000 | imm (R90). -/
def execSetfEn2 (imm : Word) (s : State) : Out := setField .en2 imm s

/-- `SETF_en3__imm`, word 0x50300000 | imm (R90). -/
def execSetfEn3 (imm : Word) (s : State) : Out := setField .en3 imm s

/-- `SETF_avg__imm`, word 0x50400000 | imm (R90). -/
def execSetfAvg (imm : Word) (s : State) : Out := setField .avg imm s

/-- `SETF_bct__imm`, word 0x50500000 | imm (R90). -/
def execSetfBct (imm : Word) (s : State) : Out := setField .bct imm s

/-- `SETF_sct__imm`, word 0x50600000 | imm (R90). -/
def execSetfSct (imm : Word) (s : State) : Out := setField .sct imm s

/-- `SETF_mode__imm`, word 0x50700000 | imm (R90). -/
def execSetfMode (imm : Word) (s : State) : Out := setField .mode imm s

/-- `SETF_volt__imm`, word 0x50800000 | imm (R90). -/
def execSetfVolt (imm : Word) (s : State) : Out := setField .volt imm s

/-- `SETF_id__imm`, word 0x50900000 | imm (R90). -/
def execSetfId (imm : Word) (s : State) : Out := setField .id imm s

/-- `GETF_rst`, word 0x60000000 (R91). -/
def execGetfRst (s : State) : Out := getField .rst s

/-- `GETF_en1`, word 0x60100000 (R91). -/
def execGetfEn1 (s : State) : Out := getField .en1 s

/-- `GETF_en2`, word 0x60200000 (R91). -/
def execGetfEn2 (s : State) : Out := getField .en2 s

/-- `GETF_en3`, word 0x60300000 (R91). -/
def execGetfEn3 (s : State) : Out := getField .en3 s

/-- `GETF_avg`, word 0x60400000 (R91). -/
def execGetfAvg (s : State) : Out := getField .avg s

/-- `GETF_bct`, word 0x60500000 (R91). -/
def execGetfBct (s : State) : Out := getField .bct s

/-- `GETF_sct`, word 0x60600000 (R91). -/
def execGetfSct (s : State) : Out := getField .sct s

/-- `GETF_mode`, word 0x60700000 (R91). -/
def execGetfMode (s : State) : Out := getField .mode s

/-- `GETF_volt`, word 0x60800000 (R91). -/
def execGetfVolt (s : State) : Out := getField .volt s

/-- `GETF_id`, word 0x60900000 (R91). -/
def execGetfId (s : State) : Out := getField .id s

/-- `LDB_imm`, word 0x70000000 | imm (R92). -/
def execLdb (imm : Word) (s : State) : Out := loadBytes imm s

/-- `GETB`, word 0x80000000 (R93). -/
def execGetb (s : State) : Out := getBytes s

end Sys2Proof.Machine
end

