-- ==== Sys2Proof/Machine/Dispatch.lean ====
section
/-! DEFINITION. Which meaning each constructor of `Instr` has. -/

namespace Sys2Proof.Machine

def exec (i : Instr) (s : State) : Host.Outcome State Fault Refusal :=
  match i with
  | .addrCfg => Sys2Proof.Machine.execAddrCfg s
  | .addrSv1 => Sys2Proof.Machine.execAddrSv1 s
  | .addrBv1 => Sys2Proof.Machine.execAddrBv1 s
  | .addrSv2 => Sys2Proof.Machine.execAddrSv2 s
  | .addrBv2 => Sys2Proof.Machine.execAddrBv2 s
  | .addrSv3 => Sys2Proof.Machine.execAddrSv3 s
  | .addrBv3 => Sys2Proof.Machine.execAddrBv3 s
  | .addrMid => Sys2Proof.Machine.execAddrMid s
  | .addrDid => Sys2Proof.Machine.execAddrDid s
  | .encCfg => Sys2Proof.Machine.execEncCfg s
  | .encSv1 => Sys2Proof.Machine.execEncSv1 s
  | .encBv1 => Sys2Proof.Machine.execEncBv1 s
  | .encSv2 => Sys2Proof.Machine.execEncSv2 s
  | .encBv2 => Sys2Proof.Machine.execEncBv2 s
  | .encSv3 => Sys2Proof.Machine.execEncSv3 s
  | .encBv3 => Sys2Proof.Machine.execEncBv3 s
  | .encMid => Sys2Proof.Machine.execEncMid s
  | .encDid => Sys2Proof.Machine.execEncDid s
  | .decCfg => Sys2Proof.Machine.execDecCfg s
  | .decSv1 => Sys2Proof.Machine.execDecSv1 s
  | .decBv1 => Sys2Proof.Machine.execDecBv1 s
  | .decSv2 => Sys2Proof.Machine.execDecSv2 s
  | .decBv2 => Sys2Proof.Machine.execDecBv2 s
  | .decSv3 => Sys2Proof.Machine.execDecSv3 s
  | .decBv3 => Sys2Proof.Machine.execDecBv3 s
  | .decMid => Sys2Proof.Machine.execDecMid s
  | .decDid => Sys2Proof.Machine.execDecDid s
  | .dfltCfg => Sys2Proof.Machine.execDfltCfg s
  | .dfltSv1 => Sys2Proof.Machine.execDfltSv1 s
  | .dfltBv1 => Sys2Proof.Machine.execDfltBv1 s
  | .dfltSv2 => Sys2Proof.Machine.execDfltSv2 s
  | .dfltBv2 => Sys2Proof.Machine.execDfltBv2 s
  | .dfltSv3 => Sys2Proof.Machine.execDfltSv3 s
  | .dfltBv3 => Sys2Proof.Machine.execDfltBv3 s
  | .dfltMid => Sys2Proof.Machine.execDfltMid s
  | .dfltDid => Sys2Proof.Machine.execDfltDid s
  | .setfRst imm => Sys2Proof.Machine.execSetfRst imm s
  | .setfEn1 imm => Sys2Proof.Machine.execSetfEn1 imm s
  | .setfEn2 imm => Sys2Proof.Machine.execSetfEn2 imm s
  | .setfEn3 imm => Sys2Proof.Machine.execSetfEn3 imm s
  | .setfAvg imm => Sys2Proof.Machine.execSetfAvg imm s
  | .setfBct imm => Sys2Proof.Machine.execSetfBct imm s
  | .setfSct imm => Sys2Proof.Machine.execSetfSct imm s
  | .setfMode imm => Sys2Proof.Machine.execSetfMode imm s
  | .setfVolt imm => Sys2Proof.Machine.execSetfVolt imm s
  | .setfId imm => Sys2Proof.Machine.execSetfId imm s
  | .getfRst => Sys2Proof.Machine.execGetfRst s
  | .getfEn1 => Sys2Proof.Machine.execGetfEn1 s
  | .getfEn2 => Sys2Proof.Machine.execGetfEn2 s
  | .getfEn3 => Sys2Proof.Machine.execGetfEn3 s
  | .getfAvg => Sys2Proof.Machine.execGetfAvg s
  | .getfBct => Sys2Proof.Machine.execGetfBct s
  | .getfSct => Sys2Proof.Machine.execGetfSct s
  | .getfMode => Sys2Proof.Machine.execGetfMode s
  | .getfVolt => Sys2Proof.Machine.execGetfVolt s
  | .getfId => Sys2Proof.Machine.execGetfId s
  | .ldb imm => Sys2Proof.Machine.execLdb imm s
  | .getb => Sys2Proof.Machine.execGetb s
  | .rdCfg => Sys2Proof.Machine.execRdCfg s
  | .rdSv1 => Sys2Proof.Machine.execRdSv1 s
  | .rdBv1 => Sys2Proof.Machine.execRdBv1 s
  | .rdSv2 => Sys2Proof.Machine.execRdSv2 s
  | .rdBv2 => Sys2Proof.Machine.execRdBv2 s
  | .rdSv3 => Sys2Proof.Machine.execRdSv3 s
  | .rdBv3 => Sys2Proof.Machine.execRdBv3 s
  | .rdMid => Sys2Proof.Machine.execRdMid s
  | .rdDid => Sys2Proof.Machine.execRdDid s
  | .wrCfg => Sys2Proof.Machine.execWrCfg s
  | .wrSv1 => Sys2Proof.Machine.execWrSv1 s
  | .wrBv1 => Sys2Proof.Machine.execWrBv1 s
  | .wrSv2 => Sys2Proof.Machine.execWrSv2 s
  | .wrBv2 => Sys2Proof.Machine.execWrBv2 s
  | .wrSv3 => Sys2Proof.Machine.execWrSv3 s
  | .wrBv3 => Sys2Proof.Machine.execWrBv3 s
  | .wrMid => Sys2Proof.Machine.execWrMid s
  | .wrDid => Sys2Proof.Machine.execWrDid s
  | .modfCfgRst imm => Sys2Proof.Machine.execModfCfgRst imm s
  | .modfCfgEn1 imm => Sys2Proof.Machine.execModfCfgEn1 imm s
  | .modfCfgEn2 imm => Sys2Proof.Machine.execModfCfgEn2 imm s
  | .modfCfgEn3 imm => Sys2Proof.Machine.execModfCfgEn3 imm s
  | .modfCfgAvg imm => Sys2Proof.Machine.execModfCfgAvg imm s
  | .modfCfgBct imm => Sys2Proof.Machine.execModfCfgBct imm s
  | .modfCfgSct imm => Sys2Proof.Machine.execModfCfgSct imm s
  | .modfCfgMode imm => Sys2Proof.Machine.execModfCfgMode imm s
  | .modfSv1Volt imm => Sys2Proof.Machine.execModfSv1Volt imm s
  | .modfBv1Volt imm => Sys2Proof.Machine.execModfBv1Volt imm s
  | .modfSv2Volt imm => Sys2Proof.Machine.execModfSv2Volt imm s
  | .modfBv2Volt imm => Sys2Proof.Machine.execModfBv2Volt imm s
  | .modfSv3Volt imm => Sys2Proof.Machine.execModfSv3Volt imm s
  | .modfBv3Volt imm => Sys2Proof.Machine.execModfBv3Volt imm s
  | .modfMidId imm => Sys2Proof.Machine.execModfMidId imm s
  | .modfDidId imm => Sys2Proof.Machine.execModfDidId imm s

end Sys2Proof.Machine
end

