-- ==== Sys2Proof/Machine/Issue.lean ====
section
/-! DEFINITION. Issuing one command word to the engine, and the host's move to its next one. -/

namespace Sys2Proof.Machine

/-- A command word presented to the engine: a legal word runs its command; every other word ends with IllegalCommand
(30_encoding.md R54, 60_exceptions.md R135). -/
def issue (c : CmdWord) (s : State) : Out :=
  match decode c with
  | .ok i => exec i s
  | .error _ => .next (raise .illegal s)

/-- The host moves on: `rest` is still to be presented, one more command has ended, whatever its status (10_state.md R14). -/
def hostAdvance (rest : List HostInput) (s : State) : State := { s with pending := rest, pos := s.pos + 1 }

/-- The host gives a reset pulse and moves on; a pulse is no command, so the position stays (70_reset_and_hazards.md R150; log
entry 8, DESIGN CHOICE: a pulse during a command is not modelled, unsafe). -/
def hostReset (rest : List HostInput) (s : State) : State := { engineReset s with pending := rest }

/-- The host has this word as the next to present, in place of what it had next. -/
def placeCommand (c : CmdWord) (s : State) : State := { s with pending := .command c :: s.pending.tail }

end Sys2Proof.Machine
end

