-- ==== Sys2Proof/Machine/Step.lean ====
section
/-! DEFINITION. One step of the machine: the host presents its next input and the engine completes it (10_state.md R14,
20_memory.md R39). A step is one whole command, of one host, and takes no time (log entries 7, 14, DEDUCED; 7 is unsafe where hosts
overlap). -/

namespace Sys2Proof.Machine

/-- One step. With nothing to present the engine waits and nothing changes (60_exceptions.md R136, 70_reset_and_hazards.md
R151). -/
def step (s : State) : Host.Outcome State Fault Refusal :=
  match s.pending with
  | [] => .next s
  | .engineReset :: rest => .next (hostReset rest s)
  | .command c :: rest =>
    match issue c s with
    | .next t => .next (hostAdvance rest t)
    | .fault r => .fault r
    | .refused r => .refused r

/-- `s` with the word of `nbits` bits as the command the host presents next (log entry 8). -/
def State.withFetchWord (s : State) (nbits w : Nat) : State := placeCommand (BitVec.ofNat 32 (w % 2 ^ nbits)) s

end Sys2Proof.Machine
end

