-- ==== Sys2Proof/Machine/Facade.lean ====
section
/-! DEFINITION. The facade (43_facade_pseudo_ops.md): each pseudo-operation as its expansion, issued by the host command by
command and stopped at the first status that is not OK (R121), with its result and the physical scaling (R120). It runs
outside `step` (log entry 13, DESIGN CHOICE, safe). -/

namespace Sys2Proof.Machine

/-! ## Channels (10_state.md R25, 43_facade_pseudo_ops.md R122) -/

/-- A channel operand; any other number is rejected (R122). -/
def channelOf? : Nat → Option Channel
  | 1 => some .ch1
  | 2 => some .ch2
  | 3 => some .ch3
  | _ => none

/-- The enable flag of a channel. -/
def channelEn : Channel → Field
  | .ch1 => .en1
  | .ch2 => .en2
  | .ch3 => .en3

/-- The shunt register of a channel. -/
def channelShunt : Channel → Kind
  | .ch1 => .sv1
  | .ch2 => .sv2
  | .ch3 => .sv3

/-- The bus register of a channel. -/
def channelBus : Channel → Kind
  | .ch1 => .bv1
  | .ch2 => .bv2
  | .ch3 => .bv3

/-- `MODF CFG, en<n>, imm`. -/
def modfEnable : Channel → Word → Instr
  | .ch1, imm => .modfCfgEn1 imm
  | .ch2, imm => .modfCfgEn2 imm
  | .ch3, imm => .modfCfgEn3 imm

/-! ## Expansions (R110 to R119) -/

/-- The commands a pseudo-operation stands for. -/
def expand : Pseudo → List Instr
  | .reset => [.dfltCfg, .setfRst 1, .wrCfg]
  | .ench n => [modfEnable n 1]
  | .disch n => [modfEnable n 0]
  | .setmode m => [.modfCfgMode (modeOrdinal m)]
  | .getmode => [.rdCfg, .getfMode]
  | .setbct t => [.modfCfgBct (convTimeOrdinal t)]
  | .getbct => [.rdCfg, .getfBct]
  | .setsct t => [.modfCfgSct (convTimeOrdinal t)]
  | .getsct => [.rdCfg, .getfSct]
  | .setavg a => [.modfCfgAvg (averagesOrdinal a)]
  | .getavg => [.rdCfg, .getfAvg]
  | .shuntv n => [rdOf (channelShunt n), .getfVolt]
  | .busv n => [rdOf (channelBus n), .getfVolt]
  | .mfgid => [.rdMid, .getfId]
  | .dieid => [.rdDid, .getfId]

/-! ## Physical scaling (R120) -/

/-- `shunt_uV(x)`, exact. -/
def shuntMicrovolts (x : Int) : Int := shuntLsbMicrovolts * x

/-- `bus_mV(x)`, exact. -/
def busMillivolts (x : Int) : Int := busLsbMillivolts * x

/-! ## Running a pseudo-operation (R121) -/

/-- What a pseudo-operation gives its caller (R121). -/
inductive PseudoResult where
  /-- A "set" operation that succeeded. -/
  | done
  | mode (m : Mode)
  | convTime (c : ConversionTime)
  | averages (a : Averages)
  | microvolts (x : Int)
  | millivolts (x : Int)
  | ident (v : Word)
  /-- A command ended with a status that is not OK; the cause goes with a TransportError. -/
  | error (status : Status) (cause : Option TErr)
  deriving DecidableEq, Repr

/-- The value a "get" operation makes of `RES.data`, or OK for a "set" operation. -/
def pseudoValue : Pseudo → Word → PseudoResult
  | .getmode, d => .mode (modeOf d)
  | .getbct, d => .convTime (convTimeOf d)
  | .getsct, d => .convTime (convTimeOf d)
  | .getavg, d => .averages (averagesOf d)
  | .shuntv _, d => .microvolts (shuntMicrovolts d.toInt)
  | .busv _, d => .millivolts (busMillivolts d.toInt)
  | .mfgid, d => .ident d
  | .dieid, d => .ident d
  | .reset, _ => .done
  | .ench _, _ => .done
  | .disch _, _ => .done
  | .setmode _, _ => .done
  | .setbct _, _ => .done
  | .setsct _, _ => .done
  | .setavg _, _ => .done

/-- The result read from `RES` when the host has stopped. -/
def pseudoResult (p : Pseudo) (r : Res) : PseudoResult :=
  if r.status = .ok then pseudoValue p r.data else .error r.status r.terr

/-- The host issues the words in order and none after the first status that is not OK. -/
def issueAll : List CmdWord → State → Out
  | [], s => .next s
  | c :: cs, s =>
    match issue c s with
    | .next t => if t.res.status = .ok then issueAll cs t else .next t
    | .fault r => .fault r
    | .refused r => .refused r

/-- A pseudo-operation: its expansion issued, its result, and the state it leaves. -/
def runPseudo (p : Pseudo) (s : State) : Host.Outcome (PseudoResult × State) Fault Refusal :=
  match issueAll ((expand p).map encode) s with
  | .next t => .next (pseudoResult p t.res, t)
  | .fault r => .fault r
  | .refused r => .refused r

end Sys2Proof.Machine
end

