-- ==== Sys2Proof/Machine/Assembler.lean ====
section
/-! DEFINITION. The textual form of commands and pseudo-operations (30_encoding.md R57, R58; 43_facade_pseudo_ops.md R122): the
names, the reading of a line, and the command word of a line. Spaces, the case of hexadecimal digits and the spelling of numbers
(channels among them) are read leniently (log entry 12, DESIGN CHOICE, unsafe for claims about text). -/

namespace Sys2Proof.Machine

/-! ## Names -/

/-- The mnemonics of the kinds (10_state.md R18). -/
def kindNames : List (String × Kind) :=
  [("CFG", .cfg), ("SV1", .sv1), ("BV1", .bv1), ("SV2", .sv2), ("BV2", .bv2), ("SV3", .sv3), ("BV3", .bv3), ("MID", .mid),
   ("DID", .did)]

/-- The cell names without `T.` (30_encoding.md R57). -/
def fieldNames : List (String × Field) :=
  [("rst", .rst), ("en1", .en1), ("en2", .en2), ("en3", .en3), ("avg", .avg), ("bct", .bct), ("sct", .sct), ("mode", .mode),
   ("volt", .volt), ("id", .id)]

/-- The variant names of Mode (10_state.md R22). -/
def modeNames : List (String × Mode) :=
  [("PowerDown", .powerDown), ("ShuntVoltSingle", .shuntVoltSingle), ("BusVoltSingle", .busVoltSingle),
   ("ShuntBusSingle", .shuntBusSingle), ("Reserved4", .reserved4), ("ShuntVoltContinuous", .shuntVoltContinuous),
   ("BusVoltContinuous", .busVoltContinuous), ("ShuntBusContinuous", .shuntBusContinuous)]

/-- The variant names of ConversionTime (10_state.md R23). -/
def convTimeNames : List (String × ConversionTime) :=
  [("Ct140us", .ct140us), ("Ct204us", .ct204us), ("Ct332us", .ct332us), ("Ct588us", .ct588us), ("Ct1100us", .ct1100us),
   ("Ct2116us", .ct2116us), ("Ct4156us", .ct4156us), ("Ct8244us", .ct8244us)]

/-- The variant names of Averages (10_state.md R24). -/
def averagesNames : List (String × Averages) :=
  [("Avg1", .avg1), ("Avg4", .avg4), ("Avg16", .avg16), ("Avg64", .avg64), ("Avg128", .avg128), ("Avg256", .avg256),
   ("Avg512", .avg512), ("Avg1024", .avg1024)]

/-- The value a name stands for in a table of names. -/
def named {A : Type} (table : List (String × A)) (word : List Char) : Option A :=
  (table.find? fun row => row.1.toList == word).map (·.2)

/-! ## Numbers -/

/-- The value of a decimal digit. -/
def decDigit? (c : Char) : Option Nat :=
  if '0'.toNat ≤ c.toNat ∧ c.toNat ≤ '9'.toNat then some (c.toNat - '0'.toNat) else none

/-- The value of a hexadecimal digit, in either case. -/
def hexDigit? (c : Char) : Option Nat :=
  match decDigit? c with
  | some d => some d
  | none =>
    if 'A'.toNat ≤ c.toNat ∧ c.toNat ≤ 'F'.toNat then some (c.toNat - 'A'.toNat + 10)
    else if 'a'.toNat ≤ c.toNat ∧ c.toNat ≤ 'f'.toNat then some (c.toNat - 'a'.toNat + 10)
    else none

/-- Digits read in a base, most significant first, onto a value. -/
def readDigits (digit? : Char → Option Nat) (base : Nat) : Nat → List Char → Option Nat
  | n, [] => some n
  | n, c :: cs =>
    match digit? c with
    | none => none
    | some d => readDigits digit? base (n * base + d) cs

/-- A decimal number or a `0x` hexadecimal one (30_encoding.md R57); leading zeros are taken (log entry 12, DESIGN CHOICE). -/
def readNat? : List Char → Option Nat
  | [] => none
  | ['0', 'x'] => none
  | '0' :: 'x' :: cs => readDigits hexDigit? 16 0 cs
  | c :: cs => readDigits decDigit? 10 0 (c :: cs)

/-- An immediate (30_encoding.md R57): a number, a signed decimal, or a variant name. -/
def readImm? (word : List Char) : Option ImmText :=
  match word with
  | '-' :: c :: cs => (readDigits decDigit? 10 0 (c :: cs)).map fun n => .signed (-(n : Int))
  | _ =>
    match readNat? word with
    | some n => some (.num n)
    | none =>
      match named modeNames word with
      | some m => some (.mode m)
      | none =>
        match named convTimeNames word with
        | some c => some (.convTime c)
        | none => (named averagesNames word).map .averages

/-! ## Lines -/

/-- Spaces at the front removed. -/
def skipSpaces : List Char → List Char
  | ' ' :: cs => skipSpaces cs
  | cs => cs

/-- The operands of a line, separated by commas, spaces around each removed. -/
def readOperands : List Char → List Char → List (List Char)
  | acc, [] => [(skipSpaces acc).reverse]
  | acc, ',' :: cs => (skipSpaces acc).reverse :: readOperands [] cs
  | acc, ' ' :: cs => if acc.isEmpty then readOperands [] cs else readOperands (' ' :: acc) cs
  | acc, c :: cs => readOperands (c :: acc) cs

/-- Mnemonic and operands of a line: `MNEMONIC operand, operand, ...` (30_encoding.md R57). -/
def splitLine (line : String) : String × List (List Char) :=
  let cs := skipSpaces line.toList
  let rest := skipSpaces (cs.dropWhile (· ≠ ' '))
  (String.ofList (cs.takeWhile (· ≠ ' ')), if rest.isEmpty then [] else readOperands [] rest)

/-- A line with one kind operand. -/
def kindLine (make : Kind → Asm) : List (List Char) → Option Asm
  | [k] => (named kindNames k).map make
  | _ => none

/-- The command a line of text names, if it has the form of one (30_encoding.md R57). -/
def readAsm (line : String) : Option Asm :=
  let (mnemonic, ops) := splitLine line
  if mnemonic = "ADDR" then kindLine .addr ops
  else if mnemonic = "ENC" then kindLine .enc ops
  else if mnemonic = "DEC" then kindLine .dec ops
  else if mnemonic = "DFLT" then kindLine .dflt ops
  else if mnemonic = "RD" then kindLine .rd ops
  else if mnemonic = "WR" then kindLine .wr ops
  else if mnemonic = "SETF" then
    match ops with
    | [f, imm] => (named fieldNames f).bind fun fld => (readImm? imm).map fun v => .setf fld v
    | _ => none
  else if mnemonic = "GETF" then
    match ops with
    | [f] => (named fieldNames f).map .getf
    | _ => none
  else if mnemonic = "LDB" then
    match ops with
    | [imm] => (readImm? imm).map .ldb
    | _ => none
  else if mnemonic = "GETB" then
    match ops with
    | [] => some .getb
    | _ => none
  else if mnemonic = "MODF" then
    match ops with
    | [k, f, imm] =>
      (named kindNames k).bind fun kind =>
        (named fieldNames f).bind fun fld => (readImm? imm).map fun v => .modf kind fld v
    | _ => none
  else none

/-- The command of a well-formed line; none for a line that is not (30_encoding.md R53, R57). -/
def assemble : Asm → Option Instr
  | .addr k => some (addrOf k)
  | .enc k => some (encOf k)
  | .dec k => some (decOf k)
  | .dflt k => some (dfltOf k)
  | .setf f imm => if imm.fits f then some (setfOf f (immBits imm)) else none
  | .getf f => some (getfOf f)
  | .ldb imm => if imm.isImage then some (.ldb (immBits imm)) else none
  | .getb => some .getb
  | .rd k => some (rdOf k)
  | .wr k => some (wrOf k)
  | .modf k f imm => if imm.fits f then modfOf k f (immBits imm) else none

/-- The command word of a line of text. -/
def assembleLine (line : String) : Option CmdWord := (readAsm line).bind fun a => (assemble a).map encode

/-- A variant operand of a pseudo-operation: its name, or its ordinal 0..7 (43_facade_pseudo_ops.md R112, R113, R115). That the
ordinal may be spelled as any number of R57 is the model's choice (log entry 12, DESIGN CHOICE). -/
def readVariant {A : Type} (names : List (String × A)) (ofOrdinal : Word → A) (word : List Char) : Option A :=
  match named names word with
  | some a => some a
  | none => (readNat? word).bind fun n => if n ≤ 7 then some (ofOrdinal (BitVec.ofNat 16 n)) else none

/-- A channel operand: a number that is 1, 2 or 3, any other rejected (43_facade_pseudo_ops.md R122). 10_state.md R25 says it is
written `1`, `2` or `3`; that another spelling of the same number (`0x2`, `02`) is taken for it is the model's choice (log entry
12, DESIGN CHOICE, unsafe for claims about text). -/
def readChannel (word : List Char) : Option Channel := (readNat? word).bind channelOf?

/-- The pseudo-operation a line of text names (30_encoding.md R58). -/
def readPseudo (line : String) : Option Pseudo :=
  let (mnemonic, ops) := splitLine line
  match ops with
  | [] =>
    if mnemonic = "RESET" then some .reset
    else if mnemonic = "GETMODE" then some .getmode
    else if mnemonic = "GETBCT" then some .getbct
    else if mnemonic = "GETSCT" then some .getsct
    else if mnemonic = "GETAVG" then some .getavg
    else if mnemonic = "MFGID" then some .mfgid
    else if mnemonic = "DIEID" then some .dieid
    else none
  | [a] =>
    if mnemonic = "ENCH" then (readChannel a).map .ench
    else if mnemonic = "DISCH" then (readChannel a).map .disch
    else if mnemonic = "SETMODE" then (readVariant modeNames modeOf a).map .setmode
    else if mnemonic = "SETBCT" then (readVariant convTimeNames convTimeOf a).map .setbct
    else if mnemonic = "SETSCT" then (readVariant convTimeNames convTimeOf a).map .setsct
    else if mnemonic = "SETAVG" then (readVariant averagesNames averagesOf a).map .setavg
    else if mnemonic = "SHUNTV" then (readChannel a).map .shuntv
    else if mnemonic = "BUSV" then (readChannel a).map .busv
    else none
  | _ => none

end Sys2Proof.Machine
end

