-- ==== Sys2Proof/Safety.lean ====
section
/-! DEFINITION. What the statements mean by a good state: the latches hold what the specification says they hold, the history
names only what the engine may ask for, the device's register space has its one canonical form. -/

namespace Sys2Proof.Machine

/-- The content of `RES` (10_state.md R13): data is 0 unless the status is OK; a cause is held exactly with TransportError. -/
def resLegal (r : Res) : Bool :=
  (r.status = .ok || r.data = 0x0000) && (r.terr.isSome == decide (r.status = .transportError))

/-- The nine addresses the engine can reach (20_memory.md R30). -/
def reachable (p : Byte) : Bool :=
  [(0x00 : Byte), 0x01, 0x02, 0x03, 0x04, 0x05, 0x06, 0xFE, 0xFF].contains p

/-- The register pointer of a transaction. -/
def entryPtr : BusEntry → Byte
  | .read _ p _ => p
  | .write _ p _ _ _ => p

/-- The device address of a transaction. -/
def entryDev : BusEntry → BitVec 7
  | .read d _ _ => d
  | .write d _ _ _ _ => d

/-- A transaction the engine may ask for: to the device `DEVADDR[A_SEL]` (20_memory.md R32) at one of the nine addresses (R30). -/
def entryLegal (sel : BitVec 2) (e : BusEntry) : Prop := entryDev e = Config.devAddr sel ∧ reachable (entryPtr e) = true

/-- The invariant of the machine: the voltage cell is a sign-extended 13-bit value (10_state.md R11), `RES` is consistent (R13),
the device's register space is canonical, and every transaction in `BUSLOG` is one the engine may ask for (20_memory.md R30,
R32). -/
structure Inv (s : State) : Prop where
  volt : voltLegal s.t.volt = true
  res : resLegal s.res = true
  dev : memWf s.world.dev = true
  log : ∀ e ∈ s.buslog, entryLegal s.aSel e

/-- `TRANSPORT_ANSWERS` for the transactions of one command (00_scope.md R4): neither of the next two is left unanswered. -/
def transportAnswers (s : State) : Prop := silentAt 0 s = false ∧ silentAt 1 s = false

end Sys2Proof.Machine
end

