-- ==== Sys2Proof/Certificates/Slice0/Obligations.lean ====
section
/-! DEFINITION. The statements for the provers. They are written against `Sys2Proof.Spec`, the specification's own formulas for
images and cells (40_codec.md R68 to R73, 30_encoding.md R55), which the model's table-driven codec does not use. A row family
such as `rdOf k` stands for its nine constructors (`rdCfg` to `rdDid`), `setfOf f imm` for its ten, and `modfOf k f imm = some i`
for the sixteen constructors of `MODF`. -/

namespace Sys2Proof.Spec

open Sys2Proof.Machine

/-- The kind selector `K` of a kind (10_state.md R18). -/
def kindSel : Kind → CmdWord
  | .cfg => 0
  | .sv1 => 1
  | .bv1 => 2
  | .sv2 => 3
  | .bv2 => 4
  | .sv3 => 5
  | .bv3 => 6
  | .mid => 7
  | .did => 8

/-- The field selector `F` of a cell (10_state.md R11). -/
def fldSel : Field → CmdWord
  | .rst => 0
  | .en1 => 1
  | .en2 => 2
  | .en3 => 3
  | .avg => 4
  | .bct => 5
  | .sct => 6
  | .mode => 7
  | .volt => 8
  | .id => 9

/-- `0b0` or `0b1` on 16 bits. -/
def bit (b : Bool) : Word := (BitVec.ofBool b).setWidth 16

/-- `encode_CFG` as the formula of 40_codec.md R68, each code the ordinal held in the cell. -/
def cfgImage (c : Cfg) : Word :=
  (bit c.rst <<< 15) ||| (bit c.en1 <<< 14) ||| (bit c.en2 <<< 13) ||| (bit c.en3 <<< 12)
    ||| (averagesOrdinal c.avg <<< 9) ||| (convTimeOrdinal c.bct <<< 6) ||| (convTimeOrdinal c.sct <<< 3) ||| modeOrdinal c.mode

/-- `decode_CFG` as the formula of 40_codec.md R69. -/
def cfgOf (W : Word) : Cfg :=
  { rst := W.getLsbD 15
    en1 := W.getLsbD 14
    en2 := W.getLsbD 13
    en3 := W.getLsbD 12
    avg := averagesOf ((W.extractLsb' 9 3).setWidth 16)
    bct := convTimeOf ((W.extractLsb' 6 3).setWidth 16)
    sct := convTimeOf ((W.extractLsb' 3 3).setWidth 16)
    mode := modeOf ((W.extractLsb' 0 3).setWidth 16) }

/-- The image `encode_k` gives the cells of `k` in `T` (40_codec.md R68, R70, R72). -/
def imageOf (k : Kind) (t : TFile) : Word :=
  match layoutOf k with
  | .cfg => cfgImage t.cfg
  | .volt => t.volt.extractLsb' 0 13 ++ 0#3
  | .id => t.id

/-- `T` with the cells of `k` decoded from the image `W`, the others kept (40_codec.md R69, R71, R73). -/
def loaded (k : Kind) (W : Word) (t : TFile) : TFile :=
  match layoutOf k with
  | .cfg => { t with cfg := cfgOf W }
  | .volt => { t with volt := (W.extractLsb' 3 13).signExtend 16 }
  | .id => { t with id := W }

/-- `T` with the cells of `k` at their defaults (10_state.md R26). -/
def defaulted (k : Kind) (t : TFile) : TFile :=
  match layoutOf k with
  | .cfg => { t with cfg := ⟨false, defaultEn.getLsbD 2, defaultEn.getLsbD 1, defaultEn.getLsbD 0, .avg1, .ct1100us, .ct1100us,
      .shuntBusContinuous⟩ }
  | .volt => { t with volt := 0 }
  | .id => { t with id := 0 }

/-- `T` with the cell `f` set to `clip_f(imm)`, the others kept (30_encoding.md R55). -/
def setCell (f : Field) (imm : Word) (t : TFile) : TFile :=
  match f with
  | .rst => { t with cfg := { t.cfg with rst := imm.getLsbD 0 } }
  | .en1 => { t with cfg := { t.cfg with en1 := imm.getLsbD 0 } }
  | .en2 => { t with cfg := { t.cfg with en2 := imm.getLsbD 0 } }
  | .en3 => { t with cfg := { t.cfg with en3 := imm.getLsbD 0 } }
  | .avg => { t with cfg := { t.cfg with avg := averagesOf ((imm.extractLsb' 0 3).setWidth 16) } }
  | .bct => { t with cfg := { t.cfg with bct := convTimeOf ((imm.extractLsb' 0 3).setWidth 16) } }
  | .sct => { t with cfg := { t.cfg with sct := convTimeOf ((imm.extractLsb' 0 3).setWidth 16) } }
  | .mode => { t with cfg := { t.cfg with mode := modeOf ((imm.extractLsb' 0 3).setWidth 16) } }
  | .volt => { t with volt := (imm.extractLsb' 0 13).signExtend 16 }
  | .id => { t with id := imm }

/-- The 16 bits that report the cell `f` (41_operand_commands.md R91). -/
def cellBits (f : Field) (t : TFile) : Word :=
  match f with
  | .rst => bit t.cfg.rst
  | .en1 => bit t.cfg.en1
  | .en2 => bit t.cfg.en2
  | .en3 => bit t.cfg.en3
  | .avg => averagesOrdinal t.cfg.avg
  | .bct => convTimeOrdinal t.cfg.bct
  | .sct => convTimeOrdinal t.cfg.sct
  | .mode => modeOrdinal t.cfg.mode
  | .volt => t.volt
  | .id => t.id

/-- `W[15:8]`. -/
def first (W : Word) : Byte := W.extractLsb' 8 8

/-- `W[7:0]`. -/
def second (W : Word) : Byte := W.extractLsb' 0 8

/-- Start bit and width of a field (10_state.md R19 to R21). -/
def position : Field → Nat × Nat
  | .rst => (15, 1)
  | .en1 => (14, 1)
  | .en2 => (13, 1)
  | .en3 => (12, 1)
  | .avg => (9, 3)
  | .bct => (6, 3)
  | .sct => (3, 3)
  | .mode => (0, 3)
  | .volt => (3, 13)
  | .id => (0, 16)

/-- Whether an instruction is one of `RD`, `WR`, `MODF`, the only ones that reach the device (20_memory.md R30). -/
def usesBus (i : Instr) : Bool := 9 ≤ (cmdFields i).op.toNat

/-- The field and the immediate of a facade "set" or enable operation (43_facade_pseudo_ops.md R111 to R115). -/
def target : Pseudo → Option (Field × Word)
  | .ench .ch1 => some (.en1, 1)
  | .ench .ch2 => some (.en2, 1)
  | .ench .ch3 => some (.en3, 1)
  | .disch .ch1 => some (.en1, 0)
  | .disch .ch2 => some (.en2, 0)
  | .disch .ch3 => some (.en3, 0)
  | .setmode m => some (.mode, modeOrdinal m)
  | .setbct t => some (.bct, convTimeOrdinal t)
  | .setsct t => some (.sct, convTimeOrdinal t)
  | .setavg a => some (.avg, averagesOrdinal a)
  | _ => none

/-- The kind a facade "get" operation reads (43_facade_pseudo_ops.md R112 to R119). -/
def source : Pseudo → Option Kind
  | .getmode => some .cfg
  | .getbct => some .cfg
  | .getsct => some .cfg
  | .getavg => some .cfg
  | .shuntv .ch1 => some .sv1
  | .shuntv .ch2 => some .sv2
  | .shuntv .ch3 => some .sv3
  | .busv .ch1 => some .bv1
  | .busv .ch2 => some .bv2
  | .busv .ch3 => some .bv3
  | .mfgid => some .mid
  | .dieid => some .did
  | _ => none

/-- What a facade "get" operation gives for the image it read (43_facade_pseudo_ops.md R112 to R120). -/
def gotten (W : Word) : Pseudo → Option PseudoResult
  | .getmode => some (.mode (modeOf ((W.extractLsb' 0 3).setWidth 16)))
  | .getbct => some (.convTime (convTimeOf ((W.extractLsb' 6 3).setWidth 16)))
  | .getsct => some (.convTime (convTimeOf ((W.extractLsb' 3 3).setWidth 16)))
  | .getavg => some (.averages (averagesOf ((W.extractLsb' 9 3).setWidth 16)))
  | .shuntv _ => some (.microvolts (40 * (W.extractLsb' 3 13).toInt))
  | .busv _ => some (.millivolts (8 * (W.extractLsb' 3 13).toInt))
  | .mfgid => some (.ident W)
  | .dieid => some (.ident W)
  | _ => none

end Sys2Proof.Spec

open Sys2Proof Sys2Proof.Machine

/-! ## Encoding -/

/-- 30_encoding.md R50 to R53: decoding the word of an instruction gives it back, for all 92 rows and every immediate. -/
def Obligations.DecodeOfEncode : Prop := ∀ i : Instr, decode (encode i) = .ok i

/-- 30_encoding.md R54, section 7: a legal word is the word of the instruction it decodes to, so no two words share a meaning. -/
def Obligations.EncodeOfDecode : Prop := ∀ (c : CmdWord) (i : Instr), decode c = .ok i → encode i = c

/-- 30_encoding.md R54, section 7: a word is legal exactly when it matches a row of the opcode map; rows do not overlap. -/
def Obligations.LegalWordsAreTheTableRows : Prop :=
  ∀ c : CmdWord, ((∃ i, decode c = .ok i) ↔ ∃ r ∈ opcodeRows, r.selects c = true) ∧
    ∀ r ∈ opcodeRows, ∀ r' ∈ opcodeRows, r.selects c = true → r'.selects c = true → r = r'

/-- 30_encoding.md R54: legality field by field: `op` in range, `zero` zero, untaken fields zero, `kind` and `fld` in range where
taken and, for `MODF`, the field belongs to the kind. -/
def Obligations.LegalWordsByFields : Prop :=
  ∀ c : CmdWord, (∃ i, decode c = .ok i) ↔
    ∃ o, opOf? (opField c) = some o ∧ zeroField c = 0 ∧
      (o.takesKind = false → kindField c = 0) ∧ (o.takesFld = false → fldField c = 0) ∧ (o.takesImm = false → immField c = 0) ∧
      (o.takesKind = true → (kindField c).toNat ≤ 8) ∧ (o.takesFld = true → (fldField c).toNat ≤ 9) ∧
      (o = .modf → ((kindField c).toNat = 0 ∧ (fldField c).toNat ≤ 7) ∨
        (1 ≤ (kindField c).toNat ∧ (kindField c).toNat ≤ 6 ∧ (fldField c).toNat = 8) ∨
        (7 ≤ (kindField c).toNat ∧ (fldField c).toNat = 9))

/-- Words of 95_test_vectors.md decode to the instructions they are listed with; the all-zero and all-ones words are illegal. -/
def Obligations.SampleWordsDecode : Prop :=
  decode 0x17000000 = .ok .addrMid ∧ decode 0x20000000 = .ok .encCfg ∧ decode 0x33000000 = .ok .decSv2 ∧
  decode 0x40000000 = .ok .dfltCfg ∧ decode 0x5080FF9C = .ok (.setfVolt 0xFF9C) ∧ decode 0x60700000 = .ok .getfMode ∧
  decode 0x70005449 = .ok (.ldb 0x5449) ∧ decode 0x80000000 = .ok .getb ∧ decode 0x98000000 = .ok .rdDid ∧
  decode 0xA0000000 = .ok .wrCfg ∧ decode 0xB0700006 = .ok (.modfCfgMode 6) ∧ decode 0xB7901234 = .ok (.modfMidId 0x1234) ∧
  decode 0x00000000 = .error .op ∧ decode 0xFFFFFFFF = .error .op

/-! ## Steps -/

/-- 10_state.md R14, 20_memory.md R39: when the host's next word decodes to `i`, the step is `exec i`, and the host then moves to
its next input with one more command ended; a fault or a refusal of `exec` is the step's. -/
def Obligations.StepRunsTheDecodedCommand : Prop :=
  ∀ (s : State) (c : CmdWord) (rest : List HostInput) (i : Instr), s.pending = .command c :: rest → decode c = .ok i →
    step s = match exec i s with
      | .next t => .next { t with pending := rest, pos := t.pos + 1 }
      | .fault f => .fault f
      | .refused r => .refused r

/-- 60_exceptions.md R135: a word that matches no row ends with IllegalCommand: no transaction, `T` and `B` unchanged, `RES` =
(4, 0, none). The host moves on. -/
def Obligations.IllegalWordsReportIllegalCommand : Prop :=
  ∀ (s : State) (c : CmdWord) (rest : List HostInput), s.pending = .command c :: rest →
    (∀ r ∈ opcodeRows, r.selects c = false) →
    step s = .next { s with res := ⟨.illegalCommand, 0, none⟩, pending := rest, pos := s.pos + 1 }

/-- 70_reset_and_hazards.md R150 (a), R151, 60_exceptions.md R136: an engine reset sets `T`, `B`, `RES` to their reset values and
empties `BUSLOG`; the strap, the device and the host's position are untouched. With no input the engine waits and nothing
changes. That the pulse is an input between commands is the model's (log entry 8). -/
def Obligations.StepWithoutACommand : Prop :=
  (∀ (s : State) (rest : List HostInput), s.pending = .engineReset :: rest →
    step s = .next
      { s with
        t := ⟨⟨false, defaultEn.getLsbD 2, defaultEn.getLsbD 1, defaultEn.getLsbD 0, .avg1, .ct1100us, .ct1100us,
          .shuntBusContinuous⟩, 0, 0⟩
        b := ⟨0, 0⟩, res := ⟨.ok, 0, none⟩, buslog := [], pending := rest }) ∧
  ∀ s : State, s.pending = [] → step s = .next s

/-- 10_state.md R28: the values the specification gives the latches and `BUSLOG` after reset. -/
def Obligations.ResetValues : Prop :=
  State.reset.t = ⟨⟨false, false, false, false, .avg1, .ct1100us, .ct1100us, .shuntBusContinuous⟩, 0x0000, 0x0000⟩ ∧
  State.reset.b = ⟨0x00, 0x00⟩ ∧ State.reset.res = ⟨.ok, 0x0000, none⟩ ∧ State.reset.buslog = []

/-- The invariant holds after reset. -/
def Obligations.ResetMeetsInv : Prop := Inv State.reset

/-- 10_state.md R11, R13, 20_memory.md R30, R32: every step from a state that meets the invariant gives one that meets it: the
voltage cell stays a sign-extended 13-bit value, `RES` stays consistent, the device's register space stays canonical, every
transaction asked for goes to `DEVADDR[A_SEL]` at one of the nine addresses. -/
def Obligations.StepKeepsInv : Prop := ∀ s t : State, Inv s → step s = .next t → Inv t

/-- 10_state.md R14, R16: no command reads or writes the host's queue or position, and none writes the strap (`RD`, `WR` and `MODF`
read it); the host's position advances by one after every command, whatever its status. That the oracle in force is a field of
the state, and that no command writes it either, is the model's (log entry 2, DESIGN CHOICE). -/
def Obligations.CommandsLeaveTheHostSideAlone : Prop :=
  (∀ (i : Instr) (s t : State), exec i s = .next t →
    (t.pending = s.pending ∧ t.pos = s.pos ∧ t.aSel = s.aSel ∧ t.world.oracle = s.world.oracle) ∧
    ∀ (q : List HostInput) (n : Nat), exec i { s with pending := q, pos := n } = .next { t with pending := q, pos := n }) ∧
  ∀ (s t : State) (c : CmdWord) (rest : List HostInput), s.pending = .command c :: rest → step s = .next t →
    t.pending = rest ∧ t.pos = s.pos + 1

/-! ## Rules about every command -/

/-- 10_state.md R13, 60_exceptions.md R139: no command reads `RES`, so no error outlives the next command. -/
def Obligations.NoCommandReadsRes : Prop :=
  ∀ (i : Instr) (s : State) (r : Res), exec i { s with res := r } = exec i s

/-- 10_state.md R15, 20_memory.md R39: no command reads `BUSLOG`, and every command only adds entries at its end, at most two
(70_reset_and_hazards.md R158). -/
def Obligations.BuslogIsOnlyAddedTo : Prop :=
  ∀ (i : Instr) (s t : State), exec i s = .next t →
    ∃ d : List BusEntry, d.length ≤ 2 ∧ t.buslog = s.buslog ++ d ∧
      ∀ l : List BusEntry, exec i { s with buslog := l } = .next { t with buslog := l ++ d }

/-- 60_exceptions.md R138: a command that ends with an error leaves `T` and `B` as they were; `RES.data` is 0, and a cause is held
exactly with a TransportError. -/
def Obligations.ErrorsWriteOnlyRes : Prop :=
  ∀ (i : Instr) (s t : State), exec i s = .next t → t.res.status ≠ .ok →
    t.t = s.t ∧ t.b = s.b ∧ t.res.data = 0 ∧ (t.res.terr.isSome = true ↔ t.res.status = .transportError)

/-- 40_codec.md R84: neither DecodeError nor EncodeError is ever reported, and IllegalCommand by no row of the table. -/
def Obligations.CodecErrorsNeverHappen : Prop :=
  ∀ (i : Instr) (s t : State), exec i s = .next t →
    t.res.status ≠ .decodeError ∧ t.res.status ≠ .encodeError ∧ t.res.status ≠ .illegalCommand

/-- 70_reset_and_hazards.md R158: if the transport answers, every command of the table completes; and no command is ever
refused. -/
def Obligations.CommandsCompleteIfTheTransportAnswers : Prop :=
  ∀ (i : Instr) (s : State), transportAnswers s → ∃ t, exec i s = .next t

/-- 70_reset_and_hazards.md R158, 20_memory.md R30: the commands that issue no transaction (`ADDR`, `ENC`, `DEC`, `DFLT`, `SETF`,
`GETF`, `LDB`, `GETB`: 58 constructors) always complete, with status OK, and touch neither world nor history. -/
def Obligations.QuietCommandsAlwaysComplete : Prop :=
  ∀ (i : Instr) (s : State), Spec.usesBus i = false →
    ∃ t, exec i s = .next t ∧ t.res.status = .ok ∧ t.world = s.world ∧ t.buslog = s.buslog ∧ t.aSel = s.aSel

/-- 42_access_protocol.md R106: the transactions of every command: `RD` one read, `WR` one write, `MODF` a read then a write at the
same pointer or the read alone, everything else none; all at `address(k)` of `DEVADDR[A_SEL]`. -/
def Obligations.TransactionShapes : Prop :=
  (∀ (k : Kind) (s t : State), exec (rdOf k) s = .next t →
    ∃ a, t.buslog = s.buslog ++ [.read (Config.devAddr s.aSel) (address k) a]) ∧
  (∀ (k : Kind) (s t : State), exec (wrOf k) s = .next t →
    ∃ b0 b1 a, t.buslog = s.buslog ++ [.write (Config.devAddr s.aSel) (address k) b0 b1 a]) ∧
  (∀ (k : Kind) (f : Field) (imm : Word) (i : Instr) (s t : State), modfOf k f imm = some i → exec i s = .next t →
    (∃ e, t.buslog = s.buslog ++ [.read (Config.devAddr s.aSel) (address k) (.failed e)]) ∨
    ∃ r0 r1 b0 b1 a, t.buslog = s.buslog ++
      [.read (Config.devAddr s.aSel) (address k) (.bytes r0 r1), .write (Config.devAddr s.aSel) (address k) b0 b1 a]) ∧
  (∀ (i : Instr) (s t : State), Spec.usesBus i = false → exec i s = .next t → t.buslog = s.buslog) ∧
  (∀ (c : CmdWord) (s t : State), (∀ i, decode c ≠ .ok i) → issue c s = .next t → t.buslog = s.buslog)

/-- 60_exceptions.md R131: the codes of the five statuses; 5 to 7 are never produced. -/
def Obligations.StatusCodes : Prop :=
  statusCode .ok = 0 ∧ statusCode .transportError = 1 ∧ statusCode .decodeError = 2 ∧ statusCode .encodeError = 3 ∧
  statusCode .illegalCommand = 4 ∧ ∀ st, (statusCode st).toNat < 5

/-! ## ADDR, ENC, DEC, DFLT -/

/-- 10_state.md R16 to R18: kind selectors and addresses; no two kinds share an address; the four selector values map one to one
to device addresses. -/
def Obligations.AddressTables : Prop :=
  (([.cfg, .sv1, .bv1, .sv2, .bv2, .sv3, .bv3, .mid, .did] : List Kind).map fun k => (kindOf? ((Spec.kindSel k).setWidth 4), address k)) =
    [(some .cfg, 0x00), (some .sv1, 0x01), (some .bv1, 0x02), (some .sv2, 0x03), (some .bv2, 0x04), (some .sv3, 0x05),
     (some .bv3, 0x06), (some .mid, 0xFE), (some .did, 0xFF)] ∧
  (∀ k k' : Kind, address k = address k' → k = k') ∧
  ∀ a b : BitVec 2, Config.devAddr a = Config.devAddr b → a = b

/-- 40_codec.md R76: `ADDR k` (`addrCfg` to `addrDid`). -/
def Obligations.AddrReportsTheAddress : Prop :=
  ∀ (k : Kind) (s : State), encode (addrOf k) = 0x10000000 ||| (Spec.kindSel k <<< 24) ∧
    exec (addrOf k) s = .next { s with res := ⟨.ok, (address k).setWidth 16, none⟩ }

/-- 40_codec.md R77: `ENC CFG` (`encCfg`): the image of R68. -/
def Obligations.EncCfgPacksTheCells : Prop :=
  ∀ s : State, encode .encCfg = 0x20000000 ∧
    exec .encCfg s = .next { s with
      b := ⟨Spec.first (Spec.cfgImage s.t.cfg), Spec.second (Spec.cfgImage s.t.cfg)⟩
      res := ⟨.ok, Spec.cfgImage s.t.cfg, none⟩ }

/-- 40_codec.md R78: `ENC k` for the six voltage kinds (`encSv1` to `encBv3`): `volt[12:0] ∥ 000`. -/
def Obligations.EncVoltLeftJustifies : Prop :=
  ∀ (k : Kind) (s : State), layoutOf k = .volt →
    encode (encOf k) = 0x20000000 ||| (Spec.kindSel k <<< 24) ∧
    exec (encOf k) s = .next { s with
      b := ⟨Spec.first (s.t.volt.extractLsb' 0 13 ++ 0#3), Spec.second (s.t.volt.extractLsb' 0 13 ++ 0#3)⟩
      res := ⟨.ok, s.t.volt.extractLsb' 0 13 ++ 0#3, none⟩ }

/-- 40_codec.md R79: `ENC MID`, `ENC DID` (`encMid`, `encDid`). -/
def Obligations.EncIdCopies : Prop :=
  ∀ (k : Kind) (s : State), layoutOf k = .id →
    encode (encOf k) = 0x20000000 ||| (Spec.kindSel k <<< 24) ∧
    exec (encOf k) s = .next { s with b := ⟨Spec.first s.t.id, Spec.second s.t.id⟩, res := ⟨.ok, s.t.id, none⟩ }

/-- 40_codec.md R80: `DEC CFG` (`decCfg`): the eight cells of R69. -/
def Obligations.DecCfgUnpacksTheCells : Prop :=
  ∀ s : State, encode .decCfg = 0x30000000 ∧
    exec .decCfg s = .next { s with
      t := { s.t with cfg := Spec.cfgOf (s.b.b0 ++ s.b.b1) }
      res := ⟨.ok, s.b.b0 ++ s.b.b1, none⟩ }

/-- 40_codec.md R81: `DEC k` for the six voltage kinds (`decSv1` to `decBv3`): bits [15:3] sign-extended, bits [2:0] ignored. -/
def Obligations.DecVoltSignExtends : Prop :=
  ∀ (k : Kind) (s : State), layoutOf k = .volt →
    encode (decOf k) = 0x30000000 ||| (Spec.kindSel k <<< 24) ∧
    exec (decOf k) s = .next { s with
      t := { s.t with volt := ((s.b.b0 ++ s.b.b1).extractLsb' 3 13).signExtend 16 }
      res := ⟨.ok, s.b.b0 ++ s.b.b1, none⟩ }

/-- 40_codec.md R82: `DEC MID`, `DEC DID` (`decMid`, `decDid`). -/
def Obligations.DecIdCopies : Prop :=
  ∀ (k : Kind) (s : State), layoutOf k = .id →
    encode (decOf k) = 0x30000000 ||| (Spec.kindSel k <<< 24) ∧
    exec (decOf k) s = .next { s with t := { s.t with id := s.b.b0 ++ s.b.b1 }, res := ⟨.ok, s.b.b0 ++ s.b.b1, none⟩ }

/-- 40_codec.md R83: `DFLT k` (`dfltCfg` to `dfltDid`). -/
def Obligations.DfltWritesTheDefaults : Prop :=
  ∀ (k : Kind) (s : State), encode (dfltOf k) = 0x40000000 ||| (Spec.kindSel k <<< 24) ∧
    exec (dfltOf k) s = .next { s with t := Spec.defaulted k s.t, res := ⟨.ok, 0, none⟩ }

/-- 10_state.md R26: the image of a default Configuration for every value of `DEFAULT_EN`. -/
def Obligations.DefaultImage : Prop :=
  ∀ en : BitVec 3, encodeCfg (defaultCfg en) = .ok (0x0127 ||| (en.setWidth 16 <<< 12))

/-- 40_codec.md R61, R62: `extract` reads only the field's bits, and the three laws of `insert`, for every field inside 16 bits. -/
def Obligations.FieldPrimitiveLaws : Prop :=
  ∀ (W W' v : Word) (s w : Nat), 1 ≤ w → s + w ≤ 16 →
    extractBits W s w = (W.extractLsb' s w).setWidth 16 ∧
    ((∀ j, s ≤ j → j < s + w → W.getLsbD j = W'.getLsbD j) → extractBits W s w = extractBits W' s w) ∧
    (∀ j, j < s ∨ s + w ≤ j → (insertBits W s w v).getLsbD j = W.getLsbD j) ∧
    extractBits (insertBits W s w v) s w = (v.setWidth w).setWidth 16 ∧
    (∀ s' w', s' + w' ≤ 16 → s' + w' ≤ s ∨ s + w ≤ s' → extractBits (insertBits W s w v) s' w' = extractBits W s' w') ∧
    insertBits W s w (extractBits W s w) = W

/-- 40_codec.md R66: in any enumeration table a code with no variant decodes to no variant, and where no code stands twice a code
decodes exactly to the variant its row gives. -/
def Obligations.ClosedEnumerations : Prop :=
  ∀ (V : Type) (table : List (V × Word)) (c : Word),
    ((∀ row ∈ table, row.2 ≠ c) → enumDec table c = none) ∧
    (table.Pairwise (fun a b => a.2 ≠ b.2) → ∀ v, enumDec table c = some v ↔ (v, c) ∈ table)

/-- 10_state.md R22 to R24, 40_codec.md R66: the three tables are total both ways, and the code is the ordinal. -/
def Obligations.EnumerationTablesAreTotal : Prop :=
  (∀ m, enumEnc modeTable m = some (modeOrdinal m) ∧ enumDec modeTable (modeOrdinal m) = some m) ∧
  (∀ c, enumEnc convTimeTable c = some (convTimeOrdinal c) ∧ enumDec convTimeTable (convTimeOrdinal c) = some c) ∧
  (∀ a, enumEnc averagesTable a = some (averagesOrdinal a) ∧ enumDec averagesTable (averagesOrdinal a) = some a) ∧
  (∀ n : Word, n.toNat < 8 → modeOrdinal (modeOf n) = n ∧ convTimeOrdinal (convTimeOf n) = n ∧ averagesOrdinal (averagesOf n) = n)

/-- 40_codec.md R74: for every kind and every valid content of its cells, `decode(encode(v)) = v`. -/
def Obligations.RoundTripFromTypedValues : Prop :=
  ∀ (k : Kind) (t : TFile), voltLegal t.volt = true →
    ∃ W, encodeKind k (kindGet k t) = .ok W ∧ decodeKind k W = .ok (kindGet k t)

/-- 40_codec.md R75: for every kind and every image, `encode(decode(W))` is `W`, or `W & 0xFFF8` for a voltage kind. -/
def Obligations.RoundTripFromImages : Prop :=
  ∀ (k : Kind) (W : Word), ∃ v, decodeKind k W = .ok v ∧
    encodeKind k v = .ok (if layoutOf k = .volt then W &&& 0xFFF8 else W)

/-- 40_codec.md R70, R71: as integers, a legal voltage `x` encodes to `8x` and an image decodes to its quotient by 8 rounded down,
in -4096..4095. -/
def Obligations.VoltagesAsIntegers : Prop :=
  (∀ v : Word, voltLegal v = true → (encodeVolt v).toInt = 8 * v.toInt) ∧
  ∀ W : Word, (decodeVolt W).toInt = W.toInt / 8 ∧ -4096 ≤ (decodeVolt W).toInt ∧ (decodeVolt W).toInt ≤ 4095

/-! ## SETF, GETF, LDB, GETB -/

/-- 41_operand_commands.md R90, 30_encoding.md R55: `SETF f, imm` (`setfRst` to `setfId`). -/
def Obligations.SetfStoresTheClippedField : Prop :=
  ∀ (f : Field) (imm : Word) (s : State),
    encode (setfOf f imm) = 0x50000000 ||| (Spec.fldSel f <<< 20) ||| imm.setWidth 32 ∧
    exec (setfOf f imm) s = .next { s with
      t := Spec.setCell f imm s.t, res := ⟨.ok, Spec.cellBits f (Spec.setCell f imm s.t), none⟩ }

/-- 41_operand_commands.md R91: `GETF f` (`getfRst` to `getfId`). -/
def Obligations.GetfReportsTheField : Prop :=
  ∀ (f : Field) (s : State), encode (getfOf f) = 0x60000000 ||| (Spec.fldSel f <<< 20) ∧
    exec (getfOf f) s = .next { s with res := ⟨.ok, Spec.cellBits f s.t, none⟩ }

/-- 41_operand_commands.md R92: `LDB imm` (`ldb`). -/
def Obligations.LdbLoadsTheBuffer : Prop :=
  ∀ (imm : Word) (s : State), encode (.ldb imm) = 0x70000000 ||| imm.setWidth 32 ∧
    exec (.ldb imm) s = .next { s with b := ⟨imm.extractLsb' 8 8, imm.extractLsb' 0 8⟩, res := ⟨.ok, imm, none⟩ }

/-- 41_operand_commands.md R93: `GETB` (`getb`). -/
def Obligations.GetbReportsTheBuffer : Prop :=
  ∀ s : State, encode .getb = 0x80000000 ∧ exec .getb s = .next { s with res := ⟨.ok, s.b.b0 ++ s.b.b1, none⟩ }

/-! ## RD, WR, MODF -/

/-- 42_access_protocol.md R100: `RD k` (`rdCfg` to `rdDid`) when the transport answers bytes. -/
def Obligations.RdDeliversTheRegister : Prop :=
  ∀ (k : Kind) (s : State) (r0 r1 : Byte) (bus : Bus), silentAt 0 s = false →
    memRead s.aSel (address k) s.bus = (.bytes r0 r1, bus) →
    exec (rdOf k) s = .next { s with
      t := Spec.loaded k (r0 ++ r1) s.t, b := ⟨r0, r1⟩, res := ⟨.ok, r0 ++ r1, none⟩, world := bus.world
      buslog := s.buslog ++ [.read (Config.devAddr s.aSel) (address k) (.bytes r0 r1)] }

/-- 42_access_protocol.md R100, 60_exceptions.md R132: `RD k` when the transaction fails: only `RES` is written, with the cause
passed through. -/
def Obligations.RdReportsTransportError : Prop :=
  ∀ (k : Kind) (s : State) (e : TErr) (bus : Bus), silentAt 0 s = false →
    memRead s.aSel (address k) s.bus = (.failed e, bus) →
    exec (rdOf k) s = .next { s with
      res := ⟨.transportError, 0, some e⟩, world := bus.world
      buslog := s.buslog ++ [.read (Config.devAddr s.aSel) (address k) (.failed e)] }

/-- 42_access_protocol.md R101: `WR k` (`wrCfg` to `wrDid`): the image of the cells goes out in one write; when it succeeds it is
in `B` and `RES`; when it fails in either phase only `RES` is written, with the cause passed through. -/
def Obligations.WrSendsTheCells : Prop :=
  ∀ (k : Kind) (s : State) (a : WriteAnswer) (bus : Bus), silentAt 0 s = false →
    memWrite s.aSel (address k) (Spec.imageOf k s.t) s.bus = (a, bus) →
    exec (wrOf k) s = .next { s with
      b := match a with
        | .success => ⟨Spec.first (Spec.imageOf k s.t), Spec.second (Spec.imageOf k s.t)⟩
        | .failed _ _ => s.b
      res := match a with
        | .success => ⟨.ok, Spec.imageOf k s.t, none⟩
        | .failed _ e => ⟨.transportError, 0, some e⟩
      world := bus.world
      buslog := s.buslog ++ [.write (Config.devAddr s.aSel) (address k)
        (Spec.first (Spec.imageOf k s.t)) (Spec.second (Spec.imageOf k s.t)) a] }

/-- 42_access_protocol.md R102, R103: `MODF k, f, imm` (its sixteen constructors) when both transactions succeed: the value read,
with field `f` set to `clip_f(imm)`, is written, returned and left in `T`, `B`. -/
def Obligations.ModfReadsModifiesWrites : Prop :=
  ∀ (k : Kind) (f : Field) (imm : Word) (i : Instr) (s : State) (r0 r1 : Byte) (t' : TFile) (W : Word) (bus1 bus2 : Bus),
    modfOf k f imm = some i → transportAnswers s →
    memRead s.aSel (address k) s.bus = (.bytes r0 r1, bus1) →
    t' = Spec.setCell f imm (Spec.loaded k (r0 ++ r1) s.t) → W = Spec.imageOf k t' →
    memWrite s.aSel (address k) W bus1 = (.success, bus2) →
    exec i s = .next { s with
      t := t', b := ⟨Spec.first W, Spec.second W⟩, res := ⟨.ok, W, none⟩, world := bus2.world
      buslog := s.buslog ++ [.read (Config.devAddr s.aSel) (address k) (.bytes r0 r1),
        .write (Config.devAddr s.aSel) (address k) (Spec.first W) (Spec.second W) .success] }

/-- 42_access_protocol.md R102, R103, R105, 60_exceptions.md R132: `MODF` when its read fails (no write is issued) and when its
write fails, in either phase: only `RES` is written, with the cause passed through; nothing is retried, restored or reported of
the value. -/
def Obligations.ModfReportsTransportErrors : Prop :=
  (∀ (k : Kind) (f : Field) (imm : Word) (i : Instr) (s : State) (e : TErr) (bus : Bus),
    modfOf k f imm = some i → silentAt 0 s = false → memRead s.aSel (address k) s.bus = (.failed e, bus) →
    exec i s = .next { s with
      res := ⟨.transportError, 0, some e⟩, world := bus.world
      buslog := s.buslog ++ [.read (Config.devAddr s.aSel) (address k) (.failed e)] }) ∧
  ∀ (k : Kind) (f : Field) (imm : Word) (i : Instr) (s : State) (r0 r1 : Byte) (W : Word) (ph : Phase) (e : TErr)
    (bus1 bus2 : Bus),
    modfOf k f imm = some i → transportAnswers s →
    memRead s.aSel (address k) s.bus = (.bytes r0 r1, bus1) →
    W = Spec.imageOf k (Spec.setCell f imm (Spec.loaded k (r0 ++ r1) s.t)) →
    memWrite s.aSel (address k) W bus1 = (.failed ph e, bus2) →
    exec i s = .next { s with
      res := ⟨.transportError, 0, some e⟩, world := bus2.world
      buslog := s.buslog ++ [.read (Config.devAddr s.aSel) (address k) (.bytes r0 r1),
        .write (Config.devAddr s.aSel) (address k) (Spec.first W) (Spec.second W) (.failed ph e)] }

/-- 20_memory.md R45: a command whose transaction the transport never answers never completes: `RD` and `MODF` at their read,
`WR` at its write, `MODF` at its write if its read succeeded; no other command and nothing else stops the engine, and no command
is refused. That the hang is a fault of the model is log entry 9. -/
def Obligations.SilentTransportHangs : Prop :=
  (∀ (i : Instr) (s : State), Spec.usesBus i = true → silentAt 0 s = true → exec i s = .fault .transportSilent) ∧
  (∀ (k : Kind) (f : Field) (imm : Word) (i : Instr) (s : State) (r0 r1 : Byte), modfOf k f imm = some i →
    silentAt 1 s = true → (memRead s.aSel (address k) s.bus).1 = .bytes r0 r1 → exec i s = .fault .transportSilent) ∧
  (∀ (i : Instr) (s : State) (r : Fault), exec i s = .fault r → Spec.usesBus i = true ∧
    (silentAt 0 s = true ∨ ∃ k f imm r0 r1, modfOf k f imm = some i ∧ silentAt 1 s = true ∧
      (memRead s.aSel (address k) s.bus).1 = .bytes r0 r1)) ∧
  (∀ (i : Instr) (s : State) (r : Refusal), exec i s ≠ .refused r)

/-- 42_access_protocol.md R104: field isolation on the bus history: the write of a `MODF` that succeeds carries the image its
read returned, decoded and encoded again, with `clip_f(imm)` inserted at the field; for Configuration that image is the one
read, so every bit outside the field is the bit read, whatever the 16 bits read were. -/
def Obligations.FieldIsolation : Prop :=
  ∀ (k : Kind) (f : Field) (imm : Word) (i : Instr) (s t : State),
    modfOf k f imm = some i → exec i s = .next t → t.res.status = .ok →
    ∃ r0 r1 w0 w1 : Byte,
      t.buslog = s.buslog ++ [.read (Config.devAddr s.aSel) (address k) (.bytes r0 r1),
        .write (Config.devAddr s.aSel) (address k) w0 w1 .success] ∧
      (∃ v W, decodeKind k (r0 ++ r1) = .ok v ∧ encodeKind k v = .ok W ∧ (k = .cfg → W = r0 ++ r1) ∧
        w0 ++ w1 = insertBits W (Spec.position f).1 (Spec.position f).2 (clip f imm)) ∧
      (k = .cfg → ∀ j, j < 16 → (j < (Spec.position f).1 ∨ (Spec.position f).1 + (Spec.position f).2 ≤ j) →
        (w0 ++ w1).getLsbD j = (r0 ++ r1).getLsbD j)

/-- 10_state.md R10, 42_access_protocol.md R100, R103: what `RD` and `MODF` report, what they do on the bus and, on success, the
cells of their kind and the bytes of `B` they leave do not depend on the `T` or `B` before them: the value comes from the device,
never from a latch. -/
def Obligations.LatchesAreNotACache : Prop :=
  ∀ (k : Kind) (i : Instr) (s u : State) (t : TFile) (b : ByteBuf),
    (i = rdOf k ∨ ∃ f imm, modfOf k f imm = some i) → exec i s = .next u →
    ∃ u', exec i { s with t := t, b := b } = .next u' ∧ u'.res = u.res ∧ u'.buslog = u.buslog ∧ u'.world = u.world ∧
      (u.res.status = .ok → kindGet k u'.t = kindGet k u.t ∧ u'.b = u.b)

/-- The frame of the device's registers as the model holds them (`World.dev`): `RD` changes no byte, nor does a `MODF` whose read
fails; `WR` and any other `MODF` change no byte outside the two of the register they address. Bytes are compared with what the
other bus actors had left there before the command's last transaction. On the ideal device this is 20_memory.md R44, but for what
a failed transaction leaves elsewhere; under the unconstrained oracle, where R38 and 92 D23 leave the device open, it is the
model's choice (log entry 2, with 3, 7 and 16) and says nothing of the chip. -/
def Obligations.DeviceFrame : Prop :=
  (∀ (k : Kind) (s t : State), exec (rdOf k) s = .next t → ∀ a, memRead? t.world.dev a = memRead? (arrive s.world).dev a) ∧
  (∀ (k : Kind) (s t : State), exec (wrOf k) s = .next t → ∀ a, a ≠ hiAddr (address k) → a ≠ loAddr (address k) →
    memRead? t.world.dev a = memRead? (arrive s.world).dev a) ∧
  (∀ (k : Kind) (f : Field) (imm : Word) (i : Instr) (s t : State), modfOf k f imm = some i → exec i s = .next t →
    match memRead s.aSel (address k) s.bus with
    | (.bytes _ _, bus1) => ∀ a, a ≠ hiAddr (address k) → a ≠ loAddr (address k) →
        memRead? t.world.dev a = memRead? (arrive bus1.world).dev a
    | (.failed _, _) => ∀ a, memRead? t.world.dev a = memRead? (arrive s.world).dev a)

/-- 20_memory.md R40, R44: on the ideal device a `WR` or `MODF` that succeeds leaves its image in the register, whatever other
actors wrote before, between or instead (a lost update is not noticed). -/
def Obligations.TheLastWriteWins : Prop :=
  ∀ (k : Kind) (i : Instr) (s t : State), (i = wrOf k ∨ ∃ f imm, modfOf k f imm = some i) → s.world.oracle = .ideal →
    exec i s = .next t → t.res.status = .ok →
    memRead? t.world.dev (hiAddr (address k)) = some (Spec.first t.res.data) ∧
    memRead? t.world.dev (loAddr (address k)) = some (Spec.second t.res.data)

/-- 20_memory.md R44: on the ideal device with nothing told to interfere, `RD k` after `WR k` completes and gives back what was
written: the same `RES`, `B` and cells. -/
def Obligations.IdealDeviceReadsBack : Prop :=
  ∀ (k : Kind) (s : State), s.world.oracle = .ideal → s.world.script = [] → voltLegal s.t.volt = true →
    ∃ t u, exec (wrOf k) s = .next t ∧ exec (rdOf k) t = .next u ∧
      u.res = ⟨.ok, Spec.imageOf k s.t, none⟩ ∧ u.b = t.b ∧ u.t = s.t

/-- 20_memory.md R35, R36 (93 U3): a failed pointer phase means no data phase; on the ideal device a failed write, in either
phase, leaves in the register a draw over all images. The draw is a free value of the model (log entry 1): the statement holds
whatever it is. -/
def Obligations.AFailedWriteLeavesADraw : Prop :=
  (∀ e : TErr, dataPhaseIssued (.failed .pointerSet e) = false ∧ dataPhaseIssued (.failed .dataWrite e) = true) ∧
  ∀ (sel : BitVec 2) (p : Byte) (W : Word) (bus bus' : Bus) (ph : Phase) (e : TErr), bus.world.oracle = .ideal →
    memWrite sel p W bus = (.failed ph e, bus') →
    memRead? bus'.world.dev (hiAddr p) = some (Spec.first (Config.devWord bus.world.draws)) ∧
    memRead? bus'.world.dev (loAddr p) = some (Spec.second (Config.devWord bus.world.draws))

/-- 20_memory.md R33: the first byte of an image is its bits 15 to 8 and the second its bits 7 to 0; bytes and image determine each
other, and bit 15 is the top bit of the first byte. A write hands over an image's bytes in that order; a read answered with `r0`
then `r1` is logged so, and `RD` makes the image `r0 ∥ r1` of it and leaves the two bytes in `B` in that order. -/
def Obligations.BigEndianOnTheWire : Prop :=
  (∀ W : Word, hiByte W = W.extractLsb' 8 8 ∧ loByte W = W.extractLsb' 0 8) ∧
  (∀ b0 b1 : Byte, hiByte (image b0 b1) = b0 ∧ loByte (image b0 b1) = b1) ∧
  (∀ W : Word, image (hiByte W) (loByte W) = W ∧ W.getLsbD 15 = (hiByte W).getLsbD 7) ∧
  (∀ (sel : BitVec 2) (p : Byte) (W : Word) (bus : Bus), (memWrite sel p W bus).2.log =
    bus.log ++ [.write (Config.devAddr sel) p (hiByte W) (loByte W) (memWrite sel p W bus).1]) ∧
  (∀ (sel : BitVec 2) (p : Byte) (bus : Bus) (r0 r1 : Byte), (memRead sel p bus).1 = .bytes r0 r1 →
    (memRead sel p bus).2.log = bus.log ++ [.read (Config.devAddr sel) p (.bytes r0 r1)]) ∧
  ∀ (k : Kind) (t : TFile) (r0 r1 : Byte), ∃ d, readResult k t (.bytes r0 r1) = .ok d ∧
    d.data.extractLsb' 8 8 = r0 ∧ d.data.extractLsb' 0 8 = r1 ∧ d.b = ⟨r0, r1⟩

/-! ## Assembler and facade -/

/-- 30_encoding.md R53, R57: exactly the well-formed lines have a command. -/
def Obligations.WellFormedLinesAssemble : Prop := ∀ a : Asm, (assemble a).isSome = a.wellFormed

/-- 30_encoding.md R57, R55: a signed decimal in -4096..4095 written for `volt` is the integer the cell then denotes. -/
def Obligations.SignedImmediatesReachTheCell : Prop :=
  ∀ (x : Int) (s : State), -4096 ≤ x → x ≤ 4095 →
    ∃ i t, assemble (.setf .volt (.signed x)) = some i ∧ exec i s = .next t ∧ t.t.volt.toInt = x

/-- 43_facade_pseudo_ops.md R110: `RESET` issues exactly one transaction, a write at pointer 0x00 with payload
`0x8127 | (DEFAULT_EN << 12)`; it reads nothing; it succeeds exactly when the write does, and else passes the cause on. -/
def Obligations.FacadeResetWritesOnce : Prop :=
  ∀ (s : State) (W : Word) (a : WriteAnswer), silentAt 0 s = false → W = 0x8127 ||| (defaultEn.setWidth 16 <<< 12) →
    a = (memWrite s.aSel 0x00 W s.bus).1 →
    ∃ t, runPseudo .reset s = .next
        ((match a with
          | .success => .done
          | .failed _ e => .error .transportError (some e)), t) ∧
      t.buslog = s.buslog ++ [.write (Config.devAddr s.aSel) 0x00 (Spec.first W) (Spec.second W) a] ∧ t.t.cfg.rst = true

/-- 43_facade_pseudo_ops.md R111 to R115: an enable or "set" operation that succeeds has issued one read and one write at pointer
0x00, and the two images agree outside the operation's field, which takes the operand. -/
def Obligations.FacadeSetChangesOneField : Prop :=
  ∀ (p : Pseudo) (f : Field) (v : Word) (s t : State), Spec.target p = some (f, v) → runPseudo p s = .next (.done, t) →
    ∃ r0 r1 w0 w1 : Byte,
      t.buslog = s.buslog ++ [.read (Config.devAddr s.aSel) 0x00 (.bytes r0 r1),
        .write (Config.devAddr s.aSel) 0x00 w0 w1 .success] ∧
      ∀ j, j < 16 → (w0 ++ w1).getLsbD j =
        if (Spec.position f).1 ≤ j ∧ j < (Spec.position f).1 + (Spec.position f).2 then v.getLsbD (j - (Spec.position f).1)
        else (r0 ++ r1).getLsbD j

/-- 43_facade_pseudo_ops.md R112 to R120, R123: a "get" operation makes one fresh read of its register and gives the value its
rule states: a variant, `40x` microvolts, `8x` millivolts, or the identifier. -/
def Obligations.FacadeGetReadsAfresh : Prop :=
  ∀ (p : Pseudo) (k : Kind) (s : State) (r0 r1 : Byte) (bus : Bus), Spec.source p = some k → silentAt 0 s = false →
    memRead s.aSel (address k) s.bus = (.bytes r0 r1, bus) →
    ∃ v t, Spec.gotten (r0 ++ r1) p = some v ∧ runPseudo p s = .next (v, t) ∧
      t.buslog = s.buslog ++ [.read (Config.devAddr s.aSel) (address k) (.bytes r0 r1)]

/-- 43_facade_pseudo_ops.md R121: a "get" operation whose read fails stops there and gives the status and the cause; `T` and `B`
are as before. -/
def Obligations.FacadeGetStopsAtAFailedRead : Prop :=
  ∀ (p : Pseudo) (k : Kind) (s : State) (e : TErr) (bus : Bus), Spec.source p = some k → silentAt 0 s = false →
    memRead s.aSel (address k) s.bus = (.failed e, bus) →
    ∃ t, runPseudo p s = .next (.error .transportError (some e), t) ∧ t.t = s.t ∧ t.b = s.b ∧
      t.buslog = s.buslog ++ [.read (Config.devAddr s.aSel) (address k) (.failed e)]
end

