-- ==== Sys2Proof/Laws/State.lean ====
section
/-! SUPPORT. One lemma per field per update of the state, so that no proof unfolds a record update: `settle` (the end of every
command), `okWith`, `raise`, the host's moves and engine reset. -/

namespace Sys2Proof.Machine

variable (r : Except Err Success) (bus : Bus) (s : State)

@[simp] theorem bus_world : s.bus.world = s.world := rfl
@[simp] theorem bus_log : s.bus.log = s.buslog := rfl

/-! ## settle -/

@[simp] theorem settle_t : (settle r bus s).t = settledT r s.t := rfl
@[simp] theorem settle_b : (settle r bus s).b = settledB r s.b := rfl
@[simp] theorem settle_res : (settle r bus s).res = settledRes r := rfl
@[simp] theorem settle_world : (settle r bus s).world = bus.world := rfl
@[simp] theorem settle_buslog : (settle r bus s).buslog = bus.log := rfl
@[simp] theorem settle_aSel : (settle r bus s).aSel = s.aSel := rfl
@[simp] theorem settle_pending : (settle r bus s).pending = s.pending := rfl
@[simp] theorem settle_pos : (settle r bus s).pos = s.pos := rfl

@[simp] theorem settledT_ok (d : Success) (t : TFile) : settledT (.ok d) t = d.t := rfl
@[simp] theorem settledT_error (e : Err) (t : TFile) : settledT (.error e) t = t := rfl
@[simp] theorem settledB_ok (d : Success) (b : ByteBuf) : settledB (.ok d) b = d.b := rfl
@[simp] theorem settledB_error (e : Err) (b : ByteBuf) : settledB (.error e) b = b := rfl
@[simp] theorem settledRes_ok (d : Success) : settledRes (.ok d) = okRes d.data := rfl
@[simp] theorem settledRes_error (e : Err) : settledRes (.error e) = errRes e := rfl

/-! ## okWith, raise -/

@[simp] theorem okWith_t (d : Word) : (okWith d s).t = s.t := rfl
@[simp] theorem okWith_b (d : Word) : (okWith d s).b = s.b := rfl
@[simp] theorem okWith_res (d : Word) : (okWith d s).res = okRes d := rfl
@[simp] theorem okWith_world (d : Word) : (okWith d s).world = s.world := rfl
@[simp] theorem okWith_buslog (d : Word) : (okWith d s).buslog = s.buslog := rfl
@[simp] theorem okWith_aSel (d : Word) : (okWith d s).aSel = s.aSel := rfl
@[simp] theorem okWith_pending (d : Word) : (okWith d s).pending = s.pending := rfl
@[simp] theorem okWith_pos (d : Word) : (okWith d s).pos = s.pos := rfl

@[simp] theorem raise_t (e : Err) : (raise e s).t = s.t := rfl
@[simp] theorem raise_b (e : Err) : (raise e s).b = s.b := rfl
@[simp] theorem raise_res (e : Err) : (raise e s).res = errRes e := rfl
@[simp] theorem raise_world (e : Err) : (raise e s).world = s.world := rfl
@[simp] theorem raise_buslog (e : Err) : (raise e s).buslog = s.buslog := rfl
@[simp] theorem raise_aSel (e : Err) : (raise e s).aSel = s.aSel := rfl
@[simp] theorem raise_pending (e : Err) : (raise e s).pending = s.pending := rfl
@[simp] theorem raise_pos (e : Err) : (raise e s).pos = s.pos := rfl

/-! ## The host's moves -/

@[simp] theorem hostAdvance_t (q : List HostInput) : (hostAdvance q s).t = s.t := rfl
@[simp] theorem hostAdvance_b (q : List HostInput) : (hostAdvance q s).b = s.b := rfl
@[simp] theorem hostAdvance_res (q : List HostInput) : (hostAdvance q s).res = s.res := rfl
@[simp] theorem hostAdvance_world (q : List HostInput) : (hostAdvance q s).world = s.world := rfl
@[simp] theorem hostAdvance_buslog (q : List HostInput) : (hostAdvance q s).buslog = s.buslog := rfl
@[simp] theorem hostAdvance_aSel (q : List HostInput) : (hostAdvance q s).aSel = s.aSel := rfl
@[simp] theorem hostAdvance_pending (q : List HostInput) : (hostAdvance q s).pending = q := rfl
@[simp] theorem hostAdvance_pos (q : List HostInput) : (hostAdvance q s).pos = s.pos + 1 := rfl

@[simp] theorem hostReset_t (q : List HostInput) : (hostReset q s).t = State.reset.t := rfl
@[simp] theorem hostReset_b (q : List HostInput) : (hostReset q s).b = State.reset.b := rfl
@[simp] theorem hostReset_res (q : List HostInput) : (hostReset q s).res = State.reset.res := rfl
@[simp] theorem hostReset_world (q : List HostInput) : (hostReset q s).world = s.world := rfl
@[simp] theorem hostReset_buslog (q : List HostInput) : (hostReset q s).buslog = [] := rfl
@[simp] theorem hostReset_aSel (q : List HostInput) : (hostReset q s).aSel = s.aSel := rfl
@[simp] theorem hostReset_pending (q : List HostInput) : (hostReset q s).pending = q := rfl
@[simp] theorem hostReset_pos (q : List HostInput) : (hostReset q s).pos = s.pos := rfl

@[simp] theorem placeCommand_pending (c : CmdWord) : (placeCommand c s).pending = .command c :: s.pending.tail := rfl

/-! ## The world -/

@[simp] theorem arrive_oracle (w : World) : (arrive w).oracle = w.oracle := rfl
@[simp] theorem arrive_script (w : World) : (arrive w).script = w.script := rfl
@[simp] theorem arrive_draws (w : World) : (arrive w).draws = w.draws := rfl
@[simp] theorem arrive_ptr (w : World) : (arrive w).ptr = w.ptr := rfl

@[simp] theorem afterRead_oracle (w : World) (p : Byte) (a : ReadAnswer) : (afterRead w p a).oracle = w.oracle := rfl
@[simp] theorem afterRead_script (w : World) (p : Byte) (a : ReadAnswer) : (afterRead w p a).script = w.script.tail := rfl
@[simp] theorem afterRead_draws (w : World) (p : Byte) (a : ReadAnswer) : (afterRead w p a).draws = w.draws + 1 := rfl
@[simp] theorem afterRead_dev (w : World) (p : Byte) (a : ReadAnswer) : (afterRead w p a).dev = w.dev := rfl

@[simp] theorem afterWrite_oracle (w : World) (p : Byte) (W : Word) (a : WriteAnswer) :
    (afterWrite w p W a).oracle = w.oracle := rfl
@[simp] theorem afterWrite_script (w : World) (p : Byte) (W : Word) (a : WriteAnswer) :
    (afterWrite w p W a).script = w.script.tail := rfl
@[simp] theorem afterWrite_draws (w : World) (p : Byte) (W : Word) (a : WriteAnswer) :
    (afterWrite w p W a).draws = w.draws + 1 := rfl
@[simp] theorem afterWrite_dev (w : World) (p : Byte) (W : Word) (a : WriteAnswer) :
    (afterWrite w p W a).dev = devAfterWrite w p W a := rfl

end Sys2Proof.Machine
end

