-- ==== Sys2Proof/Laws/Memory.lean ====
section
/-! SUPPORT. The device's register space: a read after a write, and every operation keeps the canonical form. -/

namespace Sys2Proof.Machine

/-- A byte read after a byte write is the byte written, elsewhere what was there. -/
theorem memRead?_memSet (m : Memory) (a c : Nat) (b : Byte) :
    memRead? (memSet m a b) c = if c = a then some b else memRead? m c := by
  induction m with
  | nil => simp only [memSet, memRead?, eq_comm]
  | cons h m ih =>
    obtain ⟨x, v⟩ := h
    simp only [memSet]
    split
    · simp only [memRead?, eq_comm]
    · split
      · subst_vars
        simp only [memRead?, eq_comm]
        split <;> simp_all
      · simp only [memRead?, ih]
        split <;> split <;> simp_all

/-- The bytes of the register written are the image's, first byte first (20_memory.md R33). -/
theorem memRead?_devWrite (m : Memory) (p : Byte) (W : Word) (c : Nat) :
    memRead? (devWrite m p W) c =
      if c = loAddr p then some (loByte W) else if c = hiAddr p then some (hiByte W) else memRead? m c := by
  simp only [devWrite, memRead?_memSet]

theorem memRising_mono {lo lo' : Nat} {m : Memory} (h : memRising lo m = true) (hl : lo' ≤ lo) : memRising lo' m = true := by
  cases m with
  | nil => rfl
  | cons h' m =>
    obtain ⟨x, v⟩ := h'
    simp only [memRising, Bool.and_eq_true, decide_eq_true_eq] at *
    exact ⟨⟨hl.trans h.1.1, h.1.2⟩, h.2⟩

theorem memRising_memSet {lo : Nat} {m : Memory} {a : Nat} (b : Byte) (h : memRising lo m = true) (hl : lo ≤ a)
    (ha : a < 512) : memRising lo (memSet m a b) = true := by
  induction m generalizing lo with
  | nil => simp [memSet, memRising, hl, ha]
  | cons h' m ih =>
    obtain ⟨x, v⟩ := h'
    simp only [memRising, Bool.and_eq_true, decide_eq_true_eq] at h
    obtain ⟨⟨hx, hx'⟩, hm⟩ := h
    simp only [memSet]
    split
    · simp only [memRising, Bool.and_eq_true, decide_eq_true_eq]
      exact ⟨⟨hl, ha⟩, ⟨by omega, hx'⟩, hm⟩
    · split
      · subst_vars
        simp only [memRising, Bool.and_eq_true, decide_eq_true_eq]
        exact ⟨⟨hl, ha⟩, hm⟩
      · simp only [memRising, Bool.and_eq_true, decide_eq_true_eq]
        exact ⟨⟨hx, hx'⟩, ih hm (by omega)⟩

/-- A byte write inside the register space keeps the canonical form. -/
theorem memWf_memSet {m : Memory} {a : Nat} (b : Byte) (h : memWf m = true) (ha : a < 512) : memWf (memSet m a b) = true :=
  memRising_memSet b h (Nat.zero_le a) ha

/-- A register write keeps the canonical form. -/
theorem memWf_devWrite {m : Memory} (p : Byte) (W : Word) (h : memWf m = true) : memWf (devWrite m p W) = true := by
  have hp := p.isLt
  exact memWf_memSet _ (memWf_memSet _ h (by simp only [hiAddr]; omega)) (by simp only [loAddr]; omega)

/-- The writes of other actors keep the canonical form. -/
theorem memWf_arrive {w : World} (h : memWf w.dev = true) : memWf (arrive w).dev = true := by
  show memWf ((nextTurn w).before.foldl (fun m a => devWrite m a.ptr a.image) w.dev) = true
  generalize (nextTurn w).before = acts, w.dev = m at h
  induction acts generalizing m with
  | nil => exact h
  | cons a acts ih => exact ih (devWrite m a.ptr a.image) (memWf_devWrite _ _ h)

/-- A write transaction keeps the canonical form. -/
theorem memWf_devAfterWrite {w : World} (p : Byte) (W : Word) (a : WriteAnswer) (h : memWf w.dev = true) :
    memWf (devAfterWrite w p W a) = true := by
  unfold devAfterWrite
  split
  · exact h
  · split <;> exact memWf_devWrite _ _ h

/-- `MemRead` keeps the canonical form. -/
theorem memWf_memRead (sel : BitVec 2) (p : Byte) {bus : Bus} (h : memWf bus.world.dev = true) :
    memWf (memRead sel p bus).2.world.dev = true := memWf_arrive h

/-- `MemWrite` keeps the canonical form. -/
theorem memWf_memWrite (sel : BitVec 2) (p : Byte) (W : Word) {bus : Bus} (h : memWf bus.world.dev = true) :
    memWf (memWrite sel p W bus).2.world.dev = true := memWf_devAfterWrite _ _ _ (memWf_arrive h)

/-- The register space after reset has the canonical form. -/
theorem memWf_reset : memWf State.reset.world.dev = true := rfl

end Sys2Proof.Machine
end

