-- ==== Sys2Proof/Laws/Bus.lean ====
section
/-! SUPPORT. Everything the transport primitives and the generic read-modify-write can do, said once. -/

namespace Sys2Proof.Machine

variable (sel : BitVec 2) (p : Byte) (bus : Bus)

/-- `MemRead` adds one read entry with its answer (20_memory.md R31). -/
@[simp] theorem memRead_log :
    (memRead sel p bus).2.log = bus.log ++ [.read (Config.devAddr sel) p (memRead sel p bus).1] := rfl

/-- `MemRead` leaves the device's registers as the other actors left them. -/
@[simp] theorem memRead_dev : (memRead sel p bus).2.world.dev = (arrive bus.world).dev := rfl

@[simp] theorem memRead_oracle : (memRead sel p bus).2.world.oracle = bus.world.oracle := rfl
@[simp] theorem memRead_script : (memRead sel p bus).2.world.script = bus.world.script.tail := rfl

/-- `MemWrite` adds one write entry with its answer (20_memory.md R31). -/
@[simp] theorem memWrite_log (W : Word) :
    (memWrite sel p W bus).2.log =
      bus.log ++ [.write (Config.devAddr sel) p (hiByte W) (loByte W) (memWrite sel p W bus).1] := rfl

@[simp] theorem memWrite_oracle (W : Word) : (memWrite sel p W bus).2.world.oracle = bus.world.oracle := rfl
@[simp] theorem memWrite_script (W : Word) : (memWrite sel p W bus).2.world.script = bus.world.script.tail := rfl

/-- `MemWrite` leaves every byte outside the register it addresses as the other actors left it. -/
theorem memWrite_frame (W : Word) (a : Nat) (hh : a ≠ hiAddr p) (hl : a ≠ loAddr p) :
    memRead? (memWrite sel p W bus).2.world.dev a = memRead? (arrive bus.world).dev a := by
  show memRead? (devAfterWrite (arrive bus.world) p W _) a = _
  unfold devAfterWrite
  split
  · rfl
  · split <;> simp only [memRead?_devWrite, hh, hl, if_false]

/-- On the ideal device a write that succeeds leaves the image in the register (20_memory.md R44). -/
theorem memWrite_ideal_lands (W : Word) (hi : bus.world.oracle = .ideal) (ok : (memWrite sel p W bus).1 = .success) (a : Nat) :
    memRead? (memWrite sel p W bus).2.world.dev a =
      if a = loAddr p then some (loByte W) else if a = hiAddr p then some (hiByte W)
      else memRead? (arrive bus.world).dev a := by
  have key : (memWrite sel p W bus).2.world.dev = devWrite (arrive bus.world).dev p W := by
    show devAfterWrite (arrive bus.world) p W (writeAnswer (arrive bus.world)) = _
    have ok' : writeAnswer (arrive bus.world) = .success := ok
    simp only [devAfterWrite, arrive_oracle, hi, ok']
  rw [key, memRead?_devWrite]

/-- What `modify_k(f)` can do (42_access_protocol.md R102): the read fails; or the value does not decode; or it does not encode;
or the write fails; or both transactions succeed and the value written is `f` of the value read. -/
theorem modifyRegister_cases (k : Kind) (f : KindVal k → KindVal k) :
    (∃ e, (memRead sel (address k) bus).1 = .failed e ∧
      modifyRegister sel k f bus = (.error (.transport e), (memRead sel (address k) bus).2)) ∨
    (∃ r0 r1, (memRead sel (address k) bus).1 = .bytes r0 r1 ∧
      ((∃ e, decodeKind k (image r0 r1) = .error e ∧ modifyRegister sel k f bus = (.error e, (memRead sel (address k) bus).2)) ∨
       ∃ v, decodeKind k (image r0 r1) = .ok v ∧
        ((∃ e, encodeKind k (f v) = .error e ∧ modifyRegister sel k f bus = (.error e, (memRead sel (address k) bus).2)) ∨
         ∃ W, encodeKind k (f v) = .ok W ∧
          ((∃ ph e, (memWrite sel (address k) W (memRead sel (address k) bus).2).1 = .failed ph e ∧
              modifyRegister sel k f bus =
                (.error (.transport e), (memWrite sel (address k) W (memRead sel (address k) bus).2).2)) ∨
           ((memWrite sel (address k) W (memRead sel (address k) bus).2).1 = .success ∧
              modifyRegister sel k f bus =
                (.ok (f v, W), (memWrite sel (address k) W (memRead sel (address k) bus).2).2)))))) := by
  unfold modifyRegister
  rcases hr : memRead sel (address k) bus with ⟨_ | e, bus1⟩
  · rename_i r0 r1
    refine .inr ⟨r0, r1, rfl, ?_⟩
    rcases hd : decodeKind k (image r0 r1) with e | v
    · exact .inl ⟨e, rfl, by simp only [hd]⟩
    · refine .inr ⟨v, rfl, ?_⟩
      rcases he : encodeKind k (f v) with e | W
      · exact .inl ⟨e, rfl, by simp only [hd, he]⟩
      · refine .inr ⟨W, rfl, ?_⟩
        rcases hw : memWrite sel (address k) W bus1 with ⟨_ | ⟨ph, e⟩, bus2⟩
        · exact .inr ⟨rfl, by simp only [hd, he, hw]⟩
        · exact .inl ⟨ph, e, rfl, by simp only [hd, he, hw]⟩
  · exact .inl ⟨e, rfl, rfl⟩

end Sys2Proof.Machine
end

