-- ==== Sys2Proof/Laws/Codec.lean ====
section
/-! SUPPORT. The field primitives bit by bit, the enumeration tables, and the fact that the codec of this hardware never fails. -/

namespace Sys2Proof.Machine

/-- The mask of the low `w` bits, bit by bit. -/
theorem getLsbD_lowMask (w i : Nat) : (lowMask w).getLsbD i = (decide (i < w) && decide (i < 16)) := by
  simp only [lowMask, BitVec.getLsbD_ofNat, Nat.testBit_two_pow_sub_one]
  exact Bool.and_comm _ _

/-- `extract` bit by bit (40_codec.md R61). -/
theorem getLsbD_extractBits (W : Word) (s w i : Nat) :
    (extractBits W s w).getLsbD i = (decide (i < w) && W.getLsbD (s + i)) := by
  simp only [extractBits, BitVec.getLsbD_and, BitVec.getLsbD_ushiftRight, getLsbD_lowMask]
  rcases Nat.lt_or_ge i 16 with h | h
  · simp only [h, decide_true, Bool.and_comm, Bool.true_and]
  · have : W.getLsbD (s + i) = false := BitVec.getLsbD_of_ge _ _ (by omega)
    simp only [this, Bool.false_and, Bool.and_false]

/-- `insert` bit by bit (40_codec.md R62). -/
theorem getLsbD_insertBits (W : Word) (s w i : Nat) (v : Word) (hi : i < 16) :
    (insertBits W s w v).getLsbD i = if s ≤ i ∧ i < s + w then v.getLsbD (i - s) else W.getLsbD i := by
  simp only [insertBits, BitVec.getLsbD_or, BitVec.getLsbD_and, BitVec.getLsbD_not, BitVec.getLsbD_shiftLeft,
    getLsbD_lowMask, hi, decide_true, Bool.true_and]
  by_cases h1 : s ≤ i <;> by_cases h2 : i < s + w
  · have h3 : ¬ i < s := by omega
    have h4 : i - s < w := by omega
    have h5 : i - s < 16 := by omega
    simp only [h1, h2, h3, h4, h5, and_self, if_true, decide_true, decide_false, Bool.not_false, Bool.not_true,
      Bool.and_true, Bool.and_false, Bool.true_and, Bool.false_or]
  · have h3 : ¬ i < s := by omega
    have h4 : ¬ i - s < w := by omega
    simp only [h1, h2, h3, h4, and_false, if_false, decide_false, Bool.not_false, Bool.and_false, Bool.and_true,
      Bool.false_and, Bool.or_false]
  · have h3 : i < s := by omega
    simp only [h1, h3, false_and, if_false, decide_true, Bool.not_true, Bool.false_and, Bool.not_false, Bool.and_true,
      Bool.or_false]
  · exact absurd h2 (by omega)

/-- A three-bit field holds one of the eight codes. -/
theorem extractBits_three (W : Word) (s : Nat) : (extractBits W s 3).toNat < 8 := by
  have h : (extractBits W s 3).toNat ≤ (lowMask 3).toNat := by
    rw [extractBits, BitVec.toNat_and]
    exact Nat.and_le_right
  exact Nat.lt_succ_of_le h

/-! ## The three tables give every variant its ordinal and every code its variant -/

@[simp] theorem enumEnc_mode (m : Mode) : enumEnc modeTable m = some (modeOrdinal m) := by cases m <;> rfl
@[simp] theorem enumEnc_convTime (c : ConversionTime) : enumEnc convTimeTable c = some (convTimeOrdinal c) := by
  cases c <;> rfl
@[simp] theorem enumEnc_averages (a : Averages) : enumEnc averagesTable a = some (averagesOrdinal a) := by
  cases a <;> rfl

theorem eq_of_lt_eight {c : Word} (h : c.toNat < 8) :
    c = 0 ∨ c = 1 ∨ c = 2 ∨ c = 3 ∨ c = 4 ∨ c = 5 ∨ c = 6 ∨ c = 7 := by
  have : ∀ n : Nat, n < 8 → c.toNat = n → c = BitVec.ofNat 16 n := fun n hn h => by
    apply BitVec.eq_of_toNat_eq
    rw [h, BitVec.toNat_ofNat]
    omega
  have key : c = BitVec.ofNat 16 c.toNat := this _ h rfl
  generalize c.toNat = n at key h
  subst key
  interval_cases n <;> simp

theorem enumDec_mode {c : Word} (h : c.toNat < 8) : enumDec modeTable c = some (modeOf c) := by
  rcases eq_of_lt_eight h with h | h | h | h | h | h | h | h <;> subst h <;> rfl
theorem enumDec_convTime {c : Word} (h : c.toNat < 8) : enumDec convTimeTable c = some (convTimeOf c) := by
  rcases eq_of_lt_eight h with h | h | h | h | h | h | h | h <;> subst h <;> rfl
theorem enumDec_averages {c : Word} (h : c.toNat < 8) : enumDec averagesTable c = some (averagesOf c) := by
  rcases eq_of_lt_eight h with h | h | h | h | h | h | h | h <;> subst h <;> rfl

/-! ## The codec of this hardware does not fail (40_codec.md R84) -/

theorem encodeCfg_ok (c : Cfg) : ∃ W, encodeCfg c = .ok W := by
  simp only [encodeCfg, enumEnc_mode, enumEnc_convTime, enumEnc_averages]
  exact ⟨_, rfl⟩

theorem decodeCfg_ok (W : Word) : ∃ c, decodeCfg W = .ok c := by
  simp only [decodeCfg, extractField, fieldSpec, enumDec_mode (extractBits_three W _),
    enumDec_convTime (extractBits_three W _), enumDec_averages (extractBits_three W _)]
  exact ⟨_, rfl⟩

theorem encodeKind_ok (k : Kind) (v : KindVal k) : ∃ W, encodeKind k v = .ok W := by
  cases k
  case cfg => exact encodeCfg_ok v
  all_goals exact ⟨_, rfl⟩

theorem decodeKind_ok (k : Kind) (W : Word) : ∃ v, decodeKind k W = .ok v := by
  cases k
  case cfg => exact decodeCfg_ok W
  all_goals exact ⟨_, rfl⟩

/-- Sign extension from 13 bits is idempotent, so it always gives a legal voltage cell (10_state.md R11). -/
theorem voltLegal_sext13 (u : Word) : voltLegal (sext13 u) = true := by
  simp only [voltLegal, beq_iff_eq]
  unfold sext13
  apply BitVec.eq_of_getLsbD_eq
  intro i hi
  simp only [BitVec.getLsbD_signExtend, BitVec.getLsbD_setWidth, BitVec.msb_eq_getLsbD_last, hi]
  by_cases h : i < 13 <;> simp [h]

/-- What `decode` gives a voltage cell is legal. -/
theorem voltLegal_decodeVolt (W : Word) : voltLegal (decodeVolt W) = true := voltLegal_sext13 _

end Sys2Proof.Machine
end

