-- ==== Sys2Proof/Laws/Exec.lean ====
section
/-! SUPPORT. The arms of `exec`, family by family: the table rows of an operation all run that operation. -/

namespace Sys2Proof.Machine

variable (s : State)

theorem exec_addrOf (k : Kind) : exec (addrOf k) s = addrKind k s := by cases k <;> rfl
theorem exec_encOf (k : Kind) : exec (encOf k) s = encKind k s := by cases k <;> rfl
theorem exec_decOf (k : Kind) : exec (decOf k) s = decKind k s := by cases k <;> rfl
theorem exec_dfltOf (k : Kind) : exec (dfltOf k) s = dfltKind k s := by cases k <;> rfl
theorem exec_setfOf (f : Field) (imm : Word) : exec (setfOf f imm) s = setField f imm s := by cases f <;> rfl
theorem exec_getfOf (f : Field) : exec (getfOf f) s = getField f s := by cases f <;> rfl
theorem exec_ldb (imm : Word) : exec (.ldb imm) s = loadBytes imm s := rfl
theorem exec_getb : exec .getb s = getBytes s := rfl
theorem exec_rdOf (k : Kind) : exec (rdOf k) s = readKind k s := by cases k <;> rfl
theorem exec_wrOf (k : Kind) : exec (wrOf k) s = writeKind k s := by cases k <;> rfl

/-- A `MODF` row runs `MODF` of its kind and field. -/
theorem exec_modfOf {k : Kind} {f : Field} {imm : Word} {i : Instr} (h : modfOf k f imm = some i) :
    exec i s = modifyField k f imm s := by
  cases k <;> cases f <;> simp only [modfOf, Option.some.injEq, reduceCtorEq] at h <;> subst h <;> rfl

/-- Every instruction is a row of one of the eleven operations. -/
theorem instr_cases (i : Instr) :
    (∃ k, i = addrOf k) ∨ (∃ k, i = encOf k) ∨ (∃ k, i = decOf k) ∨ (∃ k, i = dfltOf k) ∨
    (∃ f imm, i = setfOf f imm) ∨ (∃ f, i = getfOf f) ∨ (∃ imm, i = .ldb imm) ∨ i = .getb ∨
    (∃ k, i = rdOf k) ∨ (∃ k, i = wrOf k) ∨ (∃ k f imm, modfOf k f imm = some i) := by
  cases i
  case addrCfg => exact .inl <| ⟨.cfg, rfl⟩
  case addrSv1 => exact .inl <| ⟨.sv1, rfl⟩
  case addrBv1 => exact .inl <| ⟨.bv1, rfl⟩
  case addrSv2 => exact .inl <| ⟨.sv2, rfl⟩
  case addrBv2 => exact .inl <| ⟨.bv2, rfl⟩
  case addrSv3 => exact .inl <| ⟨.sv3, rfl⟩
  case addrBv3 => exact .inl <| ⟨.bv3, rfl⟩
  case addrMid => exact .inl <| ⟨.mid, rfl⟩
  case addrDid => exact .inl <| ⟨.did, rfl⟩
  case encCfg => exact .inr <| .inl <| ⟨.cfg, rfl⟩
  case encSv1 => exact .inr <| .inl <| ⟨.sv1, rfl⟩
  case encBv1 => exact .inr <| .inl <| ⟨.bv1, rfl⟩
  case encSv2 => exact .inr <| .inl <| ⟨.sv2, rfl⟩
  case encBv2 => exact .inr <| .inl <| ⟨.bv2, rfl⟩
  case encSv3 => exact .inr <| .inl <| ⟨.sv3, rfl⟩
  case encBv3 => exact .inr <| .inl <| ⟨.bv3, rfl⟩
  case encMid => exact .inr <| .inl <| ⟨.mid, rfl⟩
  case encDid => exact .inr <| .inl <| ⟨.did, rfl⟩
  case decCfg => exact .inr <| .inr <| .inl <| ⟨.cfg, rfl⟩
  case decSv1 => exact .inr <| .inr <| .inl <| ⟨.sv1, rfl⟩
  case decBv1 => exact .inr <| .inr <| .inl <| ⟨.bv1, rfl⟩
  case decSv2 => exact .inr <| .inr <| .inl <| ⟨.sv2, rfl⟩
  case decBv2 => exact .inr <| .inr <| .inl <| ⟨.bv2, rfl⟩
  case decSv3 => exact .inr <| .inr <| .inl <| ⟨.sv3, rfl⟩
  case decBv3 => exact .inr <| .inr <| .inl <| ⟨.bv3, rfl⟩
  case decMid => exact .inr <| .inr <| .inl <| ⟨.mid, rfl⟩
  case decDid => exact .inr <| .inr <| .inl <| ⟨.did, rfl⟩
  case dfltCfg => exact .inr <| .inr <| .inr <| .inl <| ⟨.cfg, rfl⟩
  case dfltSv1 => exact .inr <| .inr <| .inr <| .inl <| ⟨.sv1, rfl⟩
  case dfltBv1 => exact .inr <| .inr <| .inr <| .inl <| ⟨.bv1, rfl⟩
  case dfltSv2 => exact .inr <| .inr <| .inr <| .inl <| ⟨.sv2, rfl⟩
  case dfltBv2 => exact .inr <| .inr <| .inr <| .inl <| ⟨.bv2, rfl⟩
  case dfltSv3 => exact .inr <| .inr <| .inr <| .inl <| ⟨.sv3, rfl⟩
  case dfltBv3 => exact .inr <| .inr <| .inr <| .inl <| ⟨.bv3, rfl⟩
  case dfltMid => exact .inr <| .inr <| .inr <| .inl <| ⟨.mid, rfl⟩
  case dfltDid => exact .inr <| .inr <| .inr <| .inl <| ⟨.did, rfl⟩
  case setfRst imm => exact .inr <| .inr <| .inr <| .inr <| .inl <| ⟨.rst, imm, rfl⟩
  case setfEn1 imm => exact .inr <| .inr <| .inr <| .inr <| .inl <| ⟨.en1, imm, rfl⟩
  case setfEn2 imm => exact .inr <| .inr <| .inr <| .inr <| .inl <| ⟨.en2, imm, rfl⟩
  case setfEn3 imm => exact .inr <| .inr <| .inr <| .inr <| .inl <| ⟨.en3, imm, rfl⟩
  case setfAvg imm => exact .inr <| .inr <| .inr <| .inr <| .inl <| ⟨.avg, imm, rfl⟩
  case setfBct imm => exact .inr <| .inr <| .inr <| .inr <| .inl <| ⟨.bct, imm, rfl⟩
  case setfSct imm => exact .inr <| .inr <| .inr <| .inr <| .inl <| ⟨.sct, imm, rfl⟩
  case setfMode imm => exact .inr <| .inr <| .inr <| .inr <| .inl <| ⟨.mode, imm, rfl⟩
  case setfVolt imm => exact .inr <| .inr <| .inr <| .inr <| .inl <| ⟨.volt, imm, rfl⟩
  case setfId imm => exact .inr <| .inr <| .inr <| .inr <| .inl <| ⟨.id, imm, rfl⟩
  case getfRst => exact .inr <| .inr <| .inr <| .inr <| .inr <| .inl <| ⟨.rst, rfl⟩
  case getfEn1 => exact .inr <| .inr <| .inr <| .inr <| .inr <| .inl <| ⟨.en1, rfl⟩
  case getfEn2 => exact .inr <| .inr <| .inr <| .inr <| .inr <| .inl <| ⟨.en2, rfl⟩
  case getfEn3 => exact .inr <| .inr <| .inr <| .inr <| .inr <| .inl <| ⟨.en3, rfl⟩
  case getfAvg => exact .inr <| .inr <| .inr <| .inr <| .inr <| .inl <| ⟨.avg, rfl⟩
  case getfBct => exact .inr <| .inr <| .inr <| .inr <| .inr <| .inl <| ⟨.bct, rfl⟩
  case getfSct => exact .inr <| .inr <| .inr <| .inr <| .inr <| .inl <| ⟨.sct, rfl⟩
  case getfMode => exact .inr <| .inr <| .inr <| .inr <| .inr <| .inl <| ⟨.mode, rfl⟩
  case getfVolt => exact .inr <| .inr <| .inr <| .inr <| .inr <| .inl <| ⟨.volt, rfl⟩
  case getfId => exact .inr <| .inr <| .inr <| .inr <| .inr <| .inl <| ⟨.id, rfl⟩
  case ldb imm => exact .inr <| .inr <| .inr <| .inr <| .inr <| .inr <| .inl <| ⟨imm, rfl⟩
  case getb => exact .inr <| .inr <| .inr <| .inr <| .inr <| .inr <| .inr <| .inl <| rfl
  case rdCfg => exact .inr <| .inr <| .inr <| .inr <| .inr <| .inr <| .inr <| .inr <| .inl <| ⟨.cfg, rfl⟩
  case rdSv1 => exact .inr <| .inr <| .inr <| .inr <| .inr <| .inr <| .inr <| .inr <| .inl <| ⟨.sv1, rfl⟩
  case rdBv1 => exact .inr <| .inr <| .inr <| .inr <| .inr <| .inr <| .inr <| .inr <| .inl <| ⟨.bv1, rfl⟩
  case rdSv2 => exact .inr <| .inr <| .inr <| .inr <| .inr <| .inr <| .inr <| .inr <| .inl <| ⟨.sv2, rfl⟩
  case rdBv2 => exact .inr <| .inr <| .inr <| .inr <| .inr <| .inr <| .inr <| .inr <| .inl <| ⟨.bv2, rfl⟩
  case rdSv3 => exact .inr <| .inr <| .inr <| .inr <| .inr <| .inr <| .inr <| .inr <| .inl <| ⟨.sv3, rfl⟩
  case rdBv3 => exact .inr <| .inr <| .inr <| .inr <| .inr <| .inr <| .inr <| .inr <| .inl <| ⟨.bv3, rfl⟩
  case rdMid => exact .inr <| .inr <| .inr <| .inr <| .inr <| .inr <| .inr <| .inr <| .inl <| ⟨.mid, rfl⟩
  case rdDid => exact .inr <| .inr <| .inr <| .inr <| .inr <| .inr <| .inr <| .inr <| .inl <| ⟨.did, rfl⟩
  case wrCfg => exact .inr <| .inr <| .inr <| .inr <| .inr <| .inr <| .inr <| .inr <| .inr <| .inl <| ⟨.cfg, rfl⟩
  case wrSv1 => exact .inr <| .inr <| .inr <| .inr <| .inr <| .inr <| .inr <| .inr <| .inr <| .inl <| ⟨.sv1, rfl⟩
  case wrBv1 => exact .inr <| .inr <| .inr <| .inr <| .inr <| .inr <| .inr <| .inr <| .inr <| .inl <| ⟨.bv1, rfl⟩
  case wrSv2 => exact .inr <| .inr <| .inr <| .inr <| .inr <| .inr <| .inr <| .inr <| .inr <| .inl <| ⟨.sv2, rfl⟩
  case wrBv2 => exact .inr <| .inr <| .inr <| .inr <| .inr <| .inr <| .inr <| .inr <| .inr <| .inl <| ⟨.bv2, rfl⟩
  case wrSv3 => exact .inr <| .inr <| .inr <| .inr <| .inr <| .inr <| .inr <| .inr <| .inr <| .inl <| ⟨.sv3, rfl⟩
  case wrBv3 => exact .inr <| .inr <| .inr <| .inr <| .inr <| .inr <| .inr <| .inr <| .inr <| .inl <| ⟨.bv3, rfl⟩
  case wrMid => exact .inr <| .inr <| .inr <| .inr <| .inr <| .inr <| .inr <| .inr <| .inr <| .inl <| ⟨.mid, rfl⟩
  case wrDid => exact .inr <| .inr <| .inr <| .inr <| .inr <| .inr <| .inr <| .inr <| .inr <| .inl <| ⟨.did, rfl⟩
  case modfCfgRst imm => exact .inr <| .inr <| .inr <| .inr <| .inr <| .inr <| .inr <| .inr <| .inr <| .inr <| ⟨.cfg, .rst, imm, rfl⟩
  case modfCfgEn1 imm => exact .inr <| .inr <| .inr <| .inr <| .inr <| .inr <| .inr <| .inr <| .inr <| .inr <| ⟨.cfg, .en1, imm, rfl⟩
  case modfCfgEn2 imm => exact .inr <| .inr <| .inr <| .inr <| .inr <| .inr <| .inr <| .inr <| .inr <| .inr <| ⟨.cfg, .en2, imm, rfl⟩
  case modfCfgEn3 imm => exact .inr <| .inr <| .inr <| .inr <| .inr <| .inr <| .inr <| .inr <| .inr <| .inr <| ⟨.cfg, .en3, imm, rfl⟩
  case modfCfgAvg imm => exact .inr <| .inr <| .inr <| .inr <| .inr <| .inr <| .inr <| .inr <| .inr <| .inr <| ⟨.cfg, .avg, imm, rfl⟩
  case modfCfgBct imm => exact .inr <| .inr <| .inr <| .inr <| .inr <| .inr <| .inr <| .inr <| .inr <| .inr <| ⟨.cfg, .bct, imm, rfl⟩
  case modfCfgSct imm => exact .inr <| .inr <| .inr <| .inr <| .inr <| .inr <| .inr <| .inr <| .inr <| .inr <| ⟨.cfg, .sct, imm, rfl⟩
  case modfCfgMode imm => exact .inr <| .inr <| .inr <| .inr <| .inr <| .inr <| .inr <| .inr <| .inr <| .inr <| ⟨.cfg, .mode, imm, rfl⟩
  case modfSv1Volt imm => exact .inr <| .inr <| .inr <| .inr <| .inr <| .inr <| .inr <| .inr <| .inr <| .inr <| ⟨.sv1, .volt, imm, rfl⟩
  case modfBv1Volt imm => exact .inr <| .inr <| .inr <| .inr <| .inr <| .inr <| .inr <| .inr <| .inr <| .inr <| ⟨.bv1, .volt, imm, rfl⟩
  case modfSv2Volt imm => exact .inr <| .inr <| .inr <| .inr <| .inr <| .inr <| .inr <| .inr <| .inr <| .inr <| ⟨.sv2, .volt, imm, rfl⟩
  case modfBv2Volt imm => exact .inr <| .inr <| .inr <| .inr <| .inr <| .inr <| .inr <| .inr <| .inr <| .inr <| ⟨.bv2, .volt, imm, rfl⟩
  case modfSv3Volt imm => exact .inr <| .inr <| .inr <| .inr <| .inr <| .inr <| .inr <| .inr <| .inr <| .inr <| ⟨.sv3, .volt, imm, rfl⟩
  case modfBv3Volt imm => exact .inr <| .inr <| .inr <| .inr <| .inr <| .inr <| .inr <| .inr <| .inr <| .inr <| ⟨.bv3, .volt, imm, rfl⟩
  case modfMidId imm => exact .inr <| .inr <| .inr <| .inr <| .inr <| .inr <| .inr <| .inr <| .inr <| .inr <| ⟨.mid, .id, imm, rfl⟩
  case modfDidId imm => exact .inr <| .inr <| .inr <| .inr <| .inr <| .inr <| .inr <| .inr <| .inr <| .inr <| ⟨.did, .id, imm, rfl⟩

end Sys2Proof.Machine
end

