-- ==== Sys2Proof/Laws/Commands.lean ====
section
/-! SUPPORT. Everything one command can do, said once: the end of every command is a `settle`, and what may stand in it. -/

namespace Sys2Proof.Machine

/-- What the bus of a completed command looks like beside the bus before it: at most two entries more, each legal; the oracle and
the canonical form kept. -/
structure BusGrows (sel : BitVec 2) (before after : Bus) : Prop where
  oracle : after.world.oracle = before.world.oracle
  dev : memWf before.world.dev = true → memWf after.world.dev = true
  log : ∃ d : List BusEntry, d.length ≤ 2 ∧ after.log = before.log ++ d ∧ ∀ e ∈ d, entryLegal sel e

theorem reachable_address (k : Kind) : reachable (address k) = true := by cases k <;> rfl

/-- No transaction. -/
theorem BusGrows.refl (sel : BitVec 2) (bus : Bus) : BusGrows sel bus bus :=
  ⟨rfl, id, [], by simp⟩

/-- One read. -/
theorem BusGrows.read (sel : BitVec 2) (k : Kind) (bus : Bus) : BusGrows sel bus (memRead sel (address k) bus).2 :=
  ⟨memRead_oracle _ _ _, memWf_memRead _ _, _, by simp, memRead_log _ _ _, by
    intro e he
    rw [List.mem_singleton.1 he]
    exact ⟨rfl, reachable_address k⟩⟩

/-- One write. -/
theorem BusGrows.write (sel : BitVec 2) (k : Kind) (W : Word) (bus : Bus) :
    BusGrows sel bus (memWrite sel (address k) W bus).2 :=
  ⟨memWrite_oracle _ _ _ _, memWf_memWrite _ _ _, _, by simp, memWrite_log _ _ _ _, by
    intro e he
    rw [List.mem_singleton.1 he]
    exact ⟨rfl, reachable_address k⟩⟩

/-- A read, then a write. -/
theorem BusGrows.readWrite (sel : BitVec 2) (k : Kind) (W : Word) (bus : Bus) :
    BusGrows sel bus (memWrite sel (address k) W (memRead sel (address k) bus).2).2 := by
  obtain ⟨ho, hd, hl⟩ := BusGrows.write sel k W (memRead sel (address k) bus).2
  refine ⟨ho, fun h => hd (memWf_memRead _ _ h),
    [.read (Config.devAddr sel) (address k) (memRead sel (address k) bus).1,
     .write (Config.devAddr sel) (address k) (hiByte W) (loByte W)
      (memWrite sel (address k) W (memRead sel (address k) bus).2).1], by simp, by simp, ?_⟩
  intro e he
  simp only [List.mem_cons, List.not_mem_nil, or_false] at he
  rcases he with rfl | rfl <;> exact ⟨rfl, reachable_address k⟩

/-- What `modify_k(f)` returns: the only error is the transport's (40_codec.md R84), and the value is `f` of a decoded one. -/
theorem modifyRegister_result (sel : BitVec 2) (k : Kind) (f : KindVal k → KindVal k) (bus : Bus) :
    BusGrows sel bus (modifyRegister sel k f bus).2 ∧
    ((∃ e, (modifyRegister sel k f bus).1 = .error (.transport e)) ∨
      ∃ W0 v W, decodeKind k W0 = .ok v ∧ (modifyRegister sel k f bus).1 = .ok (f v, W)) := by
  rcases modifyRegister_cases sel bus k f with ⟨e, -, h⟩ | ⟨r0, r1, -, h⟩
  · rw [h]; exact ⟨.read sel k bus, .inl ⟨e, rfl⟩⟩
  · rcases h with ⟨e, hd, -⟩ | ⟨v, hd, h⟩
    · obtain ⟨v, hv⟩ := decodeKind_ok k (image r0 r1)
      rw [hv] at hd; cases hd
    · rcases h with ⟨e, he, -⟩ | ⟨W, -, h⟩
      · obtain ⟨W, hW⟩ := encodeKind_ok k (f v)
        rw [hW] at he; cases he
      · rcases h with ⟨ph, e, -, h⟩ | ⟨-, h⟩
        · rw [h]; exact ⟨.readWrite sel k W bus, .inl ⟨e, rfl⟩⟩
        · rw [h]; exact ⟨.readWrite sel k W bus, .inr ⟨_, v, W, hd, rfl⟩⟩

/-- The cells decoded from an image hold a legal voltage. -/
theorem voltLegal_kindPut_decode {k : Kind} {W : Word} {v : KindVal k} {t : TFile} (hd : decodeKind k W = .ok v)
    (ht : voltLegal t.volt = true) : voltLegal (kindPut k v t).volt = true := by
  cases k
  case cfg => exact ht
  case mid => exact ht
  case did => exact ht
  all_goals cases hd; exact voltLegal_decodeVolt W

/-- Clipping gives a legal voltage (30_encoding.md R55). -/
theorem voltLegal_cellPut (f : Field) (imm : Word) {t : TFile} (ht : voltLegal t.volt = true) :
    voltLegal (cellPut f (clip f imm) t).volt = true := by
  cases f
  case volt => exact voltLegal_sext13 imm
  all_goals exact ht

/-- The cells of a modified value hold a legal voltage. -/
theorem voltLegal_kindPut_set {k : Kind} {f : Field} {imm W : Word} {v : KindVal k} {t : TFile} (hd : decodeKind k W = .ok v)
    (ht : voltLegal t.volt = true) : voltLegal (kindPut k (kindSet k f imm v) t).volt = true := by
  have h := voltLegal_kindPut_decode (t := t) hd ht
  cases k
  case cfg => exact ht
  case mid => exact ht
  case did => exact ht
  all_goals
    cases f
    case volt => exact voltLegal_sext13 imm
    all_goals exact h

/-- Everything a command of the table can do when it completes: one `settle`, whose error is the transport's own (40_codec.md R84,
60_exceptions.md R138), over a bus that grew by at most two legal transactions. -/
theorem exec_next {i : Instr} {s t : State} (h : exec i s = .next t) :
    ∃ r bus, t = settle r bus s ∧ BusGrows s.aSel s.bus bus ∧ (∀ e, r = .error e → ∃ c, e = .transport c) ∧
      ∀ d, r = .ok d → voltLegal s.t.volt = true → voltLegal d.t.volt = true := by
  have quiet : ∀ d : Success, exec i s = .next (settle (.ok d) s.bus s) → (voltLegal s.t.volt = true → voltLegal d.t.volt = true) →
      ∃ r bus, t = settle r bus s ∧ BusGrows s.aSel s.bus bus ∧ (∀ e, r = .error e → ∃ c, e = .transport c) ∧
        ∀ d, r = .ok d → voltLegal s.t.volt = true → voltLegal d.t.volt = true := by
    intro d hd hv
    rw [hd] at h
    cases h
    exact ⟨_, _, rfl, .refl _ _, by simp, by rintro _ ⟨⟩; exact hv⟩
  rcases instr_cases i with ⟨k, rfl⟩ | ⟨k, rfl⟩ | ⟨k, rfl⟩ | ⟨k, rfl⟩ | ⟨f, imm, rfl⟩ | ⟨f, rfl⟩ | ⟨imm, rfl⟩ | rfl | ⟨k, rfl⟩ |
    ⟨k, rfl⟩ | ⟨k, f, imm, hi⟩
  · exact quiet _ (exec_addrOf s k) id
  · obtain ⟨W, hW⟩ := encodeKind_ok k (kindGet k s.t)
    exact quiet ⟨s.t, bytesOf W, W⟩ (by rw [exec_encOf, encKind, hW]; rfl) id
  · obtain ⟨v, hv⟩ := decodeKind_ok k (bufImage s.b)
    exact quiet ⟨kindPut k v s.t, s.b, bufImage s.b⟩ (by rw [exec_decOf, decKind, hv]; rfl) (voltLegal_kindPut_decode hv)
  · refine quiet _ (exec_dfltOf s k) ?_
    cases k <;> first | exact id | exact fun _ => rfl
  · exact quiet _ (exec_setfOf s f imm) (voltLegal_cellPut f imm)
  · exact quiet _ (exec_getfOf s f) id
  · exact quiet _ (exec_ldb s imm) id
  · exact quiet _ (exec_getb s) id
  · rw [exec_rdOf, readKind] at h
    split at h
    · cases h
    · cases h
      refine ⟨_, _, rfl, .read _ _ _, ?_, ?_⟩
      · intro e he
        rcases hr : (memRead s.aSel (address k) s.bus).1 with ⟨r0, r1⟩ | c
        · obtain ⟨v, hv⟩ := decodeKind_ok k (image r0 r1)
          simp only [hr, readResult, hv, Except.map, reduceCtorEq] at he
        · rw [hr] at he; cases he; exact ⟨c, rfl⟩
      · intro d hd ht
        rcases hr : (memRead s.aSel (address k) s.bus).1 with ⟨r0, r1⟩ | c
        · obtain ⟨v, hv⟩ := decodeKind_ok k (image r0 r1)
          simp only [hr, readResult, hv, Except.map, Except.ok.injEq] at hd
          subst hd
          exact voltLegal_kindPut_decode hv ht
        · rw [hr] at hd; cases hd
  · rw [exec_wrOf, writeKind] at h
    obtain ⟨W, hW⟩ := encodeKind_ok k (kindGet k s.t)
    rw [hW] at h
    simp only at h
    split at h
    · cases h
    · cases h
      refine ⟨_, _, rfl, .write _ _ _ _, ?_, ?_⟩
      · intro e he
        rcases hr : (memWrite s.aSel (address k) W s.bus).1 with _ | ⟨ph, c⟩
        · rw [hr] at he; cases he
        · rw [hr] at he; cases he; exact ⟨c, rfl⟩
      · intro d hd ht
        rcases hr : (memWrite s.aSel (address k) W s.bus).1 with _ | ⟨ph, c⟩
        · rw [hr] at hd; cases hd; exact ht
        · rw [hr] at hd; cases hd
  · rw [exec_modfOf s hi, modifyField] at h
    split at h
    · cases h
    · split at h
      · cases h
      · cases h
        obtain ⟨hb, hr⟩ := modifyRegister_result s.aSel k (kindSet k f imm) s.bus
        refine ⟨_, _, rfl, hb, ?_, ?_⟩
        · intro e he
          rcases hr with ⟨c, hr⟩ | ⟨W0, v, W, hd, hr⟩
          · rw [hr] at he; cases he; exact ⟨c, rfl⟩
          · rw [hr] at he; cases he
        · intro d hd ht
          rcases hr with ⟨c, hr⟩ | ⟨W0, v, W, hdec, hr⟩
          · rw [hr] at hd; cases hd
          · rw [hr] at hd; cases hd; exact voltLegal_kindPut_set hdec ht

end Sys2Proof.Machine
end

