-- ==== Sys2Proof/Laws/Decode.lean ====
section
/-! SUPPORT. A command word and its five fields determine each other, and what the decoder makes of a packed word. -/

namespace Sys2Proof

/-- The fields of a packed word are the fields packed (30_encoding.md R50). -/
theorem fields_packFields (p : CmdFields) :
    opField (packFields p) = p.op ∧ kindField (packFields p) = p.kind ∧ fldField (packFields p) = p.fld ∧
      zeroField (packFields p) = 0 ∧ immField (packFields p) = p.imm := by
  obtain ⟨o, k, f, m⟩ := p
  simp only [opField, kindField, fldField, zeroField, immField, packFields]
  refine ⟨?_, ?_, ?_, ?_, ?_⟩ <;> (apply BitVec.eq_of_getLsbD_eq; intro i hi; simp only [BitVec.getLsbD_append,
    BitVec.getLsbD_extractLsb', hi, decide_true, Bool.true_and])
  · rw [if_neg (by omega), if_neg (by omega), if_neg (by omega), if_neg (by omega)]; congr 1; omega
  · rw [if_neg (by omega), if_neg (by omega), if_neg (by omega), if_pos (by omega)]; congr 1; omega
  · rw [if_neg (by omega), if_neg (by omega), if_pos (by omega)]; congr 1; omega
  · rw [if_neg (by omega), if_pos (by omega)]; simp
  · rw [if_pos (by omega)]; congr 1; omega

/-- A word whose `zero` field is 0 is the packing of its own fields (30_encoding.md R50). -/
theorem packFields_fields (c : CmdWord) (h : zeroField c = 0) :
    packFields ⟨opField c, kindField c, fldField c, immField c⟩ = c := by
  apply BitVec.eq_of_getLsbD_eq
  intro i hi
  simp only [opField, kindField, fldField, immField, packFields, BitVec.getLsbD_append, BitVec.getLsbD_extractLsb']
  have hz : ∀ j, j < 4 → c.getLsbD (16 + j) = false := by
    intro j hj
    have := congrArg (fun x => x.getLsbD j) h
    simpa [zeroField, hj] using this
  split
  · simp_all
  · split
    · have := hz (i - 16) (by omega)
      rw [show 16 + (i - 16) = i by omega] at this
      simp_all
    · split
      · rw [show 20 + (i - 16 - 4) = i by omega]; simp; omega
      · split
        · rw [show 24 + (i - 16 - 4 - 4) = i by omega]; simp; omega
        · rw [show 28 + (i - 16 - 4 - 4 - 4) = i by omega]; simp; omega

/-- The decoder on a packed word looks at nothing but the packed fields. -/
theorem decode_packFields (p : CmdFields) :
    decode (packFields p) =
      match opOf? p.op with
      | none => .error .op
      | some o =>
        if ((!o.takesKind && p.kind != 0) || (!o.takesFld && p.fld != 0) || (!o.takesImm && p.imm != 0)) = true
        then .error .unused
        else decodeOperands o p.kind p.fld p.imm := by
  obtain ⟨h1, h2, h3, h4, h5⟩ := fields_packFields p
  unfold decode unusedSet
  rw [h1, h2, h3, h4, h5]
  cases opOf? p.op <;> rfl

/-- The decoder succeeds exactly when each of its checks passes (30_encoding.md R56). -/
theorem decode_eq_ok (c : CmdWord) (i : Instr) :
    decode c = .ok i ↔ ∃ o, opOf? (opField c) = some o ∧ zeroField c = 0 ∧ unusedSet o c = false ∧
      decodeOperands o (kindField c) (fldField c) (immField c) = .ok i := by
  unfold decode
  cases opOf? (opField c) with
  | none => simp
  | some o =>
    by_cases hz : zeroField c = 0 <;> by_cases hu : unusedSet o c = true <;> simp_all

/-- The selector that stands for an operation is the only one that does (30_encoding.md R51). -/
theorem opOf?_inj {x y : BitVec 4} {o : Op} (hx : opOf? x = some o) (hy : opOf? y = some o) : x = y := by
  have h : ∀ x y : BitVec 4, opOf? x = opOf? y → (opOf? x).isSome = true → x = y := by decide
  exact h x y (hx.trans hy.symm) (by rw [hx]; rfl)

/-- The selector that stands for a kind is the only one that does (30_encoding.md R52). -/
theorem kindOf?_inj {x y : BitVec 4} {k : Kind} (hx : kindOf? x = some k) (hy : kindOf? y = some k) : x = y := by
  have h : ∀ x y : BitVec 4, kindOf? x = kindOf? y → (kindOf? x).isSome = true → x = y := by decide
  exact h x y (hx.trans hy.symm) (by rw [hx]; rfl)

/-- The selector that stands for a field is the only one that does (30_encoding.md R53). -/
theorem fldOf?_inj {x y : BitVec 4} {f : Field} (hx : fldOf? x = some f) (hy : fldOf? y = some f) : x = y := by
  have h : ∀ x y : BitVec 4, fldOf? x = fldOf? y → (fldOf? x).isSome = true → x = y := by decide
  exact h x y (hx.trans hy.symm) (by rw [hx]; rfl)

end Sys2Proof
end

