-- ==== Sys2Proof/Laws/PerInstr.lean ====
section
/-! SUPPORT. One lemma per constructor of `Instr`: the word `encode` gives selects the row that spec/opcode_table.json has for
the instruction. The rows are written out here from the table, apart from the encoder. -/

namespace Sys2Proof.Laws

/-- The match and mask of an instruction's row, copied from spec/opcode_table.json. -/
def tableRow : Instr → OpcodeRow
  | .addrCfg => ⟨0x10000000, 0xFFFFFFFF⟩
  | .addrSv1 => ⟨0x11000000, 0xFFFFFFFF⟩
  | .addrBv1 => ⟨0x12000000, 0xFFFFFFFF⟩
  | .addrSv2 => ⟨0x13000000, 0xFFFFFFFF⟩
  | .addrBv2 => ⟨0x14000000, 0xFFFFFFFF⟩
  | .addrSv3 => ⟨0x15000000, 0xFFFFFFFF⟩
  | .addrBv3 => ⟨0x16000000, 0xFFFFFFFF⟩
  | .addrMid => ⟨0x17000000, 0xFFFFFFFF⟩
  | .addrDid => ⟨0x18000000, 0xFFFFFFFF⟩
  | .encCfg => ⟨0x20000000, 0xFFFFFFFF⟩
  | .encSv1 => ⟨0x21000000, 0xFFFFFFFF⟩
  | .encBv1 => ⟨0x22000000, 0xFFFFFFFF⟩
  | .encSv2 => ⟨0x23000000, 0xFFFFFFFF⟩
  | .encBv2 => ⟨0x24000000, 0xFFFFFFFF⟩
  | .encSv3 => ⟨0x25000000, 0xFFFFFFFF⟩
  | .encBv3 => ⟨0x26000000, 0xFFFFFFFF⟩
  | .encMid => ⟨0x27000000, 0xFFFFFFFF⟩
  | .encDid => ⟨0x28000000, 0xFFFFFFFF⟩
  | .decCfg => ⟨0x30000000, 0xFFFFFFFF⟩
  | .decSv1 => ⟨0x31000000, 0xFFFFFFFF⟩
  | .decBv1 => ⟨0x32000000, 0xFFFFFFFF⟩
  | .decSv2 => ⟨0x33000000, 0xFFFFFFFF⟩
  | .decBv2 => ⟨0x34000000, 0xFFFFFFFF⟩
  | .decSv3 => ⟨0x35000000, 0xFFFFFFFF⟩
  | .decBv3 => ⟨0x36000000, 0xFFFFFFFF⟩
  | .decMid => ⟨0x37000000, 0xFFFFFFFF⟩
  | .decDid => ⟨0x38000000, 0xFFFFFFFF⟩
  | .dfltCfg => ⟨0x40000000, 0xFFFFFFFF⟩
  | .dfltSv1 => ⟨0x41000000, 0xFFFFFFFF⟩
  | .dfltBv1 => ⟨0x42000000, 0xFFFFFFFF⟩
  | .dfltSv2 => ⟨0x43000000, 0xFFFFFFFF⟩
  | .dfltBv2 => ⟨0x44000000, 0xFFFFFFFF⟩
  | .dfltSv3 => ⟨0x45000000, 0xFFFFFFFF⟩
  | .dfltBv3 => ⟨0x46000000, 0xFFFFFFFF⟩
  | .dfltMid => ⟨0x47000000, 0xFFFFFFFF⟩
  | .dfltDid => ⟨0x48000000, 0xFFFFFFFF⟩
  | .setfRst _ => ⟨0x50000000, 0xFFFF0000⟩
  | .setfEn1 _ => ⟨0x50100000, 0xFFFF0000⟩
  | .setfEn2 _ => ⟨0x50200000, 0xFFFF0000⟩
  | .setfEn3 _ => ⟨0x50300000, 0xFFFF0000⟩
  | .setfAvg _ => ⟨0x50400000, 0xFFFF0000⟩
  | .setfBct _ => ⟨0x50500000, 0xFFFF0000⟩
  | .setfSct _ => ⟨0x50600000, 0xFFFF0000⟩
  | .setfMode _ => ⟨0x50700000, 0xFFFF0000⟩
  | .setfVolt _ => ⟨0x50800000, 0xFFFF0000⟩
  | .setfId _ => ⟨0x50900000, 0xFFFF0000⟩
  | .getfRst => ⟨0x60000000, 0xFFFFFFFF⟩
  | .getfEn1 => ⟨0x60100000, 0xFFFFFFFF⟩
  | .getfEn2 => ⟨0x60200000, 0xFFFFFFFF⟩
  | .getfEn3 => ⟨0x60300000, 0xFFFFFFFF⟩
  | .getfAvg => ⟨0x60400000, 0xFFFFFFFF⟩
  | .getfBct => ⟨0x60500000, 0xFFFFFFFF⟩
  | .getfSct => ⟨0x60600000, 0xFFFFFFFF⟩
  | .getfMode => ⟨0x60700000, 0xFFFFFFFF⟩
  | .getfVolt => ⟨0x60800000, 0xFFFFFFFF⟩
  | .getfId => ⟨0x60900000, 0xFFFFFFFF⟩
  | .ldb _ => ⟨0x70000000, 0xFFFF0000⟩
  | .getb => ⟨0x80000000, 0xFFFFFFFF⟩
  | .rdCfg => ⟨0x90000000, 0xFFFFFFFF⟩
  | .rdSv1 => ⟨0x91000000, 0xFFFFFFFF⟩
  | .rdBv1 => ⟨0x92000000, 0xFFFFFFFF⟩
  | .rdSv2 => ⟨0x93000000, 0xFFFFFFFF⟩
  | .rdBv2 => ⟨0x94000000, 0xFFFFFFFF⟩
  | .rdSv3 => ⟨0x95000000, 0xFFFFFFFF⟩
  | .rdBv3 => ⟨0x96000000, 0xFFFFFFFF⟩
  | .rdMid => ⟨0x97000000, 0xFFFFFFFF⟩
  | .rdDid => ⟨0x98000000, 0xFFFFFFFF⟩
  | .wrCfg => ⟨0xA0000000, 0xFFFFFFFF⟩
  | .wrSv1 => ⟨0xA1000000, 0xFFFFFFFF⟩
  | .wrBv1 => ⟨0xA2000000, 0xFFFFFFFF⟩
  | .wrSv2 => ⟨0xA3000000, 0xFFFFFFFF⟩
  | .wrBv2 => ⟨0xA4000000, 0xFFFFFFFF⟩
  | .wrSv3 => ⟨0xA5000000, 0xFFFFFFFF⟩
  | .wrBv3 => ⟨0xA6000000, 0xFFFFFFFF⟩
  | .wrMid => ⟨0xA7000000, 0xFFFFFFFF⟩
  | .wrDid => ⟨0xA8000000, 0xFFFFFFFF⟩
  | .modfCfgRst _ => ⟨0xB0000000, 0xFFFF0000⟩
  | .modfCfgEn1 _ => ⟨0xB0100000, 0xFFFF0000⟩
  | .modfCfgEn2 _ => ⟨0xB0200000, 0xFFFF0000⟩
  | .modfCfgEn3 _ => ⟨0xB0300000, 0xFFFF0000⟩
  | .modfCfgAvg _ => ⟨0xB0400000, 0xFFFF0000⟩
  | .modfCfgBct _ => ⟨0xB0500000, 0xFFFF0000⟩
  | .modfCfgSct _ => ⟨0xB0600000, 0xFFFF0000⟩
  | .modfCfgMode _ => ⟨0xB0700000, 0xFFFF0000⟩
  | .modfSv1Volt _ => ⟨0xB1800000, 0xFFFF0000⟩
  | .modfBv1Volt _ => ⟨0xB2800000, 0xFFFF0000⟩
  | .modfSv2Volt _ => ⟨0xB3800000, 0xFFFF0000⟩
  | .modfBv2Volt _ => ⟨0xB4800000, 0xFFFF0000⟩
  | .modfSv3Volt _ => ⟨0xB5800000, 0xFFFF0000⟩
  | .modfBv3Volt _ => ⟨0xB6800000, 0xFFFF0000⟩
  | .modfMidId _ => ⟨0xB7900000, 0xFFFF0000⟩
  | .modfDidId _ => ⟨0xB8900000, 0xFFFF0000⟩

/-- The instruction's word selects its own row of the table (30_encoding.md R54, section 7). -/
def TableWord.Statement (i : Instr) : Prop := encode i &&& (tableRow i).mask = (tableRow i).pattern

/-- The upper half of a word built by the encoder does not depend on the immediate. -/
theorem packFields_masked (p : CmdFields) : packFields p &&& 0xFFFF0000 = packFields { p with imm := 0 } := by
  unfold packFields
  apply BitVec.eq_of_getLsbD_eq
  intro i hi
  have hm : (0xFFFF0000 : CmdWord).getLsbD i = decide (16 ≤ i) := by
    revert i
    decide
  simp only [BitVec.getLsbD_and, BitVec.getLsbD_append, hm]
  by_cases h : i < 16
  · have : ¬ 16 ≤ i := by omega
    simp [h]
  · have : 16 ≤ i := by omega
    simp [h, this]

theorem TableWord.addrCfg : TableWord.Statement .addrCfg := rfl
theorem TableWord.addrSv1 : TableWord.Statement .addrSv1 := rfl
theorem TableWord.addrBv1 : TableWord.Statement .addrBv1 := rfl
theorem TableWord.addrSv2 : TableWord.Statement .addrSv2 := rfl
theorem TableWord.addrBv2 : TableWord.Statement .addrBv2 := rfl
theorem TableWord.addrSv3 : TableWord.Statement .addrSv3 := rfl
theorem TableWord.addrBv3 : TableWord.Statement .addrBv3 := rfl
theorem TableWord.addrMid : TableWord.Statement .addrMid := rfl
theorem TableWord.addrDid : TableWord.Statement .addrDid := rfl
theorem TableWord.encCfg : TableWord.Statement .encCfg := rfl
theorem TableWord.encSv1 : TableWord.Statement .encSv1 := rfl
theorem TableWord.encBv1 : TableWord.Statement .encBv1 := rfl
theorem TableWord.encSv2 : TableWord.Statement .encSv2 := rfl
theorem TableWord.encBv2 : TableWord.Statement .encBv2 := rfl
theorem TableWord.encSv3 : TableWord.Statement .encSv3 := rfl
theorem TableWord.encBv3 : TableWord.Statement .encBv3 := rfl
theorem TableWord.encMid : TableWord.Statement .encMid := rfl
theorem TableWord.encDid : TableWord.Statement .encDid := rfl
theorem TableWord.decCfg : TableWord.Statement .decCfg := rfl
theorem TableWord.decSv1 : TableWord.Statement .decSv1 := rfl
theorem TableWord.decBv1 : TableWord.Statement .decBv1 := rfl
theorem TableWord.decSv2 : TableWord.Statement .decSv2 := rfl
theorem TableWord.decBv2 : TableWord.Statement .decBv2 := rfl
theorem TableWord.decSv3 : TableWord.Statement .decSv3 := rfl
theorem TableWord.decBv3 : TableWord.Statement .decBv3 := rfl
theorem TableWord.decMid : TableWord.Statement .decMid := rfl
theorem TableWord.decDid : TableWord.Statement .decDid := rfl
theorem TableWord.dfltCfg : TableWord.Statement .dfltCfg := rfl
theorem TableWord.dfltSv1 : TableWord.Statement .dfltSv1 := rfl
theorem TableWord.dfltBv1 : TableWord.Statement .dfltBv1 := rfl
theorem TableWord.dfltSv2 : TableWord.Statement .dfltSv2 := rfl
theorem TableWord.dfltBv2 : TableWord.Statement .dfltBv2 := rfl
theorem TableWord.dfltSv3 : TableWord.Statement .dfltSv3 := rfl
theorem TableWord.dfltBv3 : TableWord.Statement .dfltBv3 := rfl
theorem TableWord.dfltMid : TableWord.Statement .dfltMid := rfl
theorem TableWord.dfltDid : TableWord.Statement .dfltDid := rfl
theorem TableWord.setfRst (imm : Word) : TableWord.Statement (.setfRst imm) := by
  show encode (.setfRst imm) &&& 0xFFFF0000 = 0x50000000
  rw [encode, packFields_masked]
  show packFields ⟨0x5, 0, 0, 0⟩ = 0x50000000
  decide
theorem TableWord.setfEn1 (imm : Word) : TableWord.Statement (.setfEn1 imm) := by
  show encode (.setfEn1 imm) &&& 0xFFFF0000 = 0x50100000
  rw [encode, packFields_masked]
  show packFields ⟨0x5, 0, 1, 0⟩ = 0x50100000
  decide
theorem TableWord.setfEn2 (imm : Word) : TableWord.Statement (.setfEn2 imm) := by
  show encode (.setfEn2 imm) &&& 0xFFFF0000 = 0x50200000
  rw [encode, packFields_masked]
  show packFields ⟨0x5, 0, 2, 0⟩ = 0x50200000
  decide
theorem TableWord.setfEn3 (imm : Word) : TableWord.Statement (.setfEn3 imm) := by
  show encode (.setfEn3 imm) &&& 0xFFFF0000 = 0x50300000
  rw [encode, packFields_masked]
  show packFields ⟨0x5, 0, 3, 0⟩ = 0x50300000
  decide
theorem TableWord.setfAvg (imm : Word) : TableWord.Statement (.setfAvg imm) := by
  show encode (.setfAvg imm) &&& 0xFFFF0000 = 0x50400000
  rw [encode, packFields_masked]
  show packFields ⟨0x5, 0, 4, 0⟩ = 0x50400000
  decide
theorem TableWord.setfBct (imm : Word) : TableWord.Statement (.setfBct imm) := by
  show encode (.setfBct imm) &&& 0xFFFF0000 = 0x50500000
  rw [encode, packFields_masked]
  show packFields ⟨0x5, 0, 5, 0⟩ = 0x50500000
  decide
theorem TableWord.setfSct (imm : Word) : TableWord.Statement (.setfSct imm) := by
  show encode (.setfSct imm) &&& 0xFFFF0000 = 0x50600000
  rw [encode, packFields_masked]
  show packFields ⟨0x5, 0, 6, 0⟩ = 0x50600000
  decide
theorem TableWord.setfMode (imm : Word) : TableWord.Statement (.setfMode imm) := by
  show encode (.setfMode imm) &&& 0xFFFF0000 = 0x50700000
  rw [encode, packFields_masked]
  show packFields ⟨0x5, 0, 7, 0⟩ = 0x50700000
  decide
theorem TableWord.setfVolt (imm : Word) : TableWord.Statement (.setfVolt imm) := by
  show encode (.setfVolt imm) &&& 0xFFFF0000 = 0x50800000
  rw [encode, packFields_masked]
  show packFields ⟨0x5, 0, 8, 0⟩ = 0x50800000
  decide
theorem TableWord.setfId (imm : Word) : TableWord.Statement (.setfId imm) := by
  show encode (.setfId imm) &&& 0xFFFF0000 = 0x50900000
  rw [encode, packFields_masked]
  show packFields ⟨0x5, 0, 9, 0⟩ = 0x50900000
  decide
theorem TableWord.getfRst : TableWord.Statement .getfRst := rfl
theorem TableWord.getfEn1 : TableWord.Statement .getfEn1 := rfl
theorem TableWord.getfEn2 : TableWord.Statement .getfEn2 := rfl
theorem TableWord.getfEn3 : TableWord.Statement .getfEn3 := rfl
theorem TableWord.getfAvg : TableWord.Statement .getfAvg := rfl
theorem TableWord.getfBct : TableWord.Statement .getfBct := rfl
theorem TableWord.getfSct : TableWord.Statement .getfSct := rfl
theorem TableWord.getfMode : TableWord.Statement .getfMode := rfl
theorem TableWord.getfVolt : TableWord.Statement .getfVolt := rfl
theorem TableWord.getfId : TableWord.Statement .getfId := rfl
theorem TableWord.ldb (imm : Word) : TableWord.Statement (.ldb imm) := by
  show encode (.ldb imm) &&& 0xFFFF0000 = 0x70000000
  rw [encode, packFields_masked]
  show packFields ⟨0x7, 0, 0, 0⟩ = 0x70000000
  decide
theorem TableWord.getb : TableWord.Statement .getb := rfl
theorem TableWord.rdCfg : TableWord.Statement .rdCfg := rfl
theorem TableWord.rdSv1 : TableWord.Statement .rdSv1 := rfl
theorem TableWord.rdBv1 : TableWord.Statement .rdBv1 := rfl
theorem TableWord.rdSv2 : TableWord.Statement .rdSv2 := rfl
theorem TableWord.rdBv2 : TableWord.Statement .rdBv2 := rfl
theorem TableWord.rdSv3 : TableWord.Statement .rdSv3 := rfl
theorem TableWord.rdBv3 : TableWord.Statement .rdBv3 := rfl
theorem TableWord.rdMid : TableWord.Statement .rdMid := rfl
theorem TableWord.rdDid : TableWord.Statement .rdDid := rfl
theorem TableWord.wrCfg : TableWord.Statement .wrCfg := rfl
theorem TableWord.wrSv1 : TableWord.Statement .wrSv1 := rfl
theorem TableWord.wrBv1 : TableWord.Statement .wrBv1 := rfl
theorem TableWord.wrSv2 : TableWord.Statement .wrSv2 := rfl
theorem TableWord.wrBv2 : TableWord.Statement .wrBv2 := rfl
theorem TableWord.wrSv3 : TableWord.Statement .wrSv3 := rfl
theorem TableWord.wrBv3 : TableWord.Statement .wrBv3 := rfl
theorem TableWord.wrMid : TableWord.Statement .wrMid := rfl
theorem TableWord.wrDid : TableWord.Statement .wrDid := rfl
theorem TableWord.modfCfgRst (imm : Word) : TableWord.Statement (.modfCfgRst imm) := by
  show encode (.modfCfgRst imm) &&& 0xFFFF0000 = 0xB0000000
  rw [encode, packFields_masked]
  show packFields ⟨0xB, 0, 0, 0⟩ = 0xB0000000
  decide
theorem TableWord.modfCfgEn1 (imm : Word) : TableWord.Statement (.modfCfgEn1 imm) := by
  show encode (.modfCfgEn1 imm) &&& 0xFFFF0000 = 0xB0100000
  rw [encode, packFields_masked]
  show packFields ⟨0xB, 0, 1, 0⟩ = 0xB0100000
  decide
theorem TableWord.modfCfgEn2 (imm : Word) : TableWord.Statement (.modfCfgEn2 imm) := by
  show encode (.modfCfgEn2 imm) &&& 0xFFFF0000 = 0xB0200000
  rw [encode, packFields_masked]
  show packFields ⟨0xB, 0, 2, 0⟩ = 0xB0200000
  decide
theorem TableWord.modfCfgEn3 (imm : Word) : TableWord.Statement (.modfCfgEn3 imm) := by
  show encode (.modfCfgEn3 imm) &&& 0xFFFF0000 = 0xB0300000
  rw [encode, packFields_masked]
  show packFields ⟨0xB, 0, 3, 0⟩ = 0xB0300000
  decide
theorem TableWord.modfCfgAvg (imm : Word) : TableWord.Statement (.modfCfgAvg imm) := by
  show encode (.modfCfgAvg imm) &&& 0xFFFF0000 = 0xB0400000
  rw [encode, packFields_masked]
  show packFields ⟨0xB, 0, 4, 0⟩ = 0xB0400000
  decide
theorem TableWord.modfCfgBct (imm : Word) : TableWord.Statement (.modfCfgBct imm) := by
  show encode (.modfCfgBct imm) &&& 0xFFFF0000 = 0xB0500000
  rw [encode, packFields_masked]
  show packFields ⟨0xB, 0, 5, 0⟩ = 0xB0500000
  decide
theorem TableWord.modfCfgSct (imm : Word) : TableWord.Statement (.modfCfgSct imm) := by
  show encode (.modfCfgSct imm) &&& 0xFFFF0000 = 0xB0600000
  rw [encode, packFields_masked]
  show packFields ⟨0xB, 0, 6, 0⟩ = 0xB0600000
  decide
theorem TableWord.modfCfgMode (imm : Word) : TableWord.Statement (.modfCfgMode imm) := by
  show encode (.modfCfgMode imm) &&& 0xFFFF0000 = 0xB0700000
  rw [encode, packFields_masked]
  show packFields ⟨0xB, 0, 7, 0⟩ = 0xB0700000
  decide
theorem TableWord.modfSv1Volt (imm : Word) : TableWord.Statement (.modfSv1Volt imm) := by
  show encode (.modfSv1Volt imm) &&& 0xFFFF0000 = 0xB1800000
  rw [encode, packFields_masked]
  show packFields ⟨0xB, 1, 8, 0⟩ = 0xB1800000
  decide
theorem TableWord.modfBv1Volt (imm : Word) : TableWord.Statement (.modfBv1Volt imm) := by
  show encode (.modfBv1Volt imm) &&& 0xFFFF0000 = 0xB2800000
  rw [encode, packFields_masked]
  show packFields ⟨0xB, 2, 8, 0⟩ = 0xB2800000
  decide
theorem TableWord.modfSv2Volt (imm : Word) : TableWord.Statement (.modfSv2Volt imm) := by
  show encode (.modfSv2Volt imm) &&& 0xFFFF0000 = 0xB3800000
  rw [encode, packFields_masked]
  show packFields ⟨0xB, 3, 8, 0⟩ = 0xB3800000
  decide
theorem TableWord.modfBv2Volt (imm : Word) : TableWord.Statement (.modfBv2Volt imm) := by
  show encode (.modfBv2Volt imm) &&& 0xFFFF0000 = 0xB4800000
  rw [encode, packFields_masked]
  show packFields ⟨0xB, 4, 8, 0⟩ = 0xB4800000
  decide
theorem TableWord.modfSv3Volt (imm : Word) : TableWord.Statement (.modfSv3Volt imm) := by
  show encode (.modfSv3Volt imm) &&& 0xFFFF0000 = 0xB5800000
  rw [encode, packFields_masked]
  show packFields ⟨0xB, 5, 8, 0⟩ = 0xB5800000
  decide
theorem TableWord.modfBv3Volt (imm : Word) : TableWord.Statement (.modfBv3Volt imm) := by
  show encode (.modfBv3Volt imm) &&& 0xFFFF0000 = 0xB6800000
  rw [encode, packFields_masked]
  show packFields ⟨0xB, 6, 8, 0⟩ = 0xB6800000
  decide
theorem TableWord.modfMidId (imm : Word) : TableWord.Statement (.modfMidId imm) := by
  show encode (.modfMidId imm) &&& 0xFFFF0000 = 0xB7900000
  rw [encode, packFields_masked]
  show packFields ⟨0xB, 7, 9, 0⟩ = 0xB7900000
  decide
theorem TableWord.modfDidId (imm : Word) : TableWord.Statement (.modfDidId imm) := by
  show encode (.modfDidId imm) &&& 0xFFFF0000 = 0xB8900000
  rw [encode, packFields_masked]
  show packFields ⟨0xB, 8, 9, 0⟩ = 0xB8900000
  decide

end Sys2Proof.Laws
end

