-- ==== Sys2Proof/Tests/Slice0.lean ====
section
/-! SUPPORT. Tests: the words of the opcode map, the assembler's checks, vectors of 95_test_vectors.md one step at a time, and for
every obligation with hypotheses a witness that meets them. Expected results come from the specification. -/

namespace Sys2Proof.Tests

open Sys2Proof.Machine

/-! ## Decoding: one word for every row, written out from 30_encoding.md section 7 -/

/-- `ADDR k`: 0x1k000000, k = 0..8 (30_encoding.md section 7). -/
theorem test_decode_addr :
    ([0x10000000, 0x11000000, 0x12000000, 0x13000000, 0x14000000, 0x15000000, 0x16000000, 0x17000000,
      0x18000000] : List CmdWord).map decode =
      [.ok .addrCfg, .ok .addrSv1, .ok .addrBv1, .ok .addrSv2, .ok .addrBv2, .ok .addrSv3, .ok .addrBv3, .ok .addrMid,
      .ok .addrDid] := rfl

/-- `ENC k`: 0x2k000000, k = 0..8 (30_encoding.md section 7). -/
theorem test_decode_enc :
    ([0x20000000, 0x21000000, 0x22000000, 0x23000000, 0x24000000, 0x25000000, 0x26000000, 0x27000000,
      0x28000000] : List CmdWord).map decode =
      [.ok .encCfg, .ok .encSv1, .ok .encBv1, .ok .encSv2, .ok .encBv2, .ok .encSv3, .ok .encBv3, .ok .encMid,
      .ok .encDid] := rfl

/-- `DEC k`: 0x3k000000, k = 0..8 (30_encoding.md section 7). -/
theorem test_decode_dec :
    ([0x30000000, 0x31000000, 0x32000000, 0x33000000, 0x34000000, 0x35000000, 0x36000000, 0x37000000,
      0x38000000] : List CmdWord).map decode =
      [.ok .decCfg, .ok .decSv1, .ok .decBv1, .ok .decSv2, .ok .decBv2, .ok .decSv3, .ok .decBv3, .ok .decMid,
      .ok .decDid] := rfl

/-- `DFLT k`: 0x4k000000, k = 0..8 (30_encoding.md section 7). -/
theorem test_decode_dflt :
    ([0x40000000, 0x41000000, 0x42000000, 0x43000000, 0x44000000, 0x45000000, 0x46000000, 0x47000000,
      0x48000000] : List CmdWord).map decode =
      [.ok .dfltCfg, .ok .dfltSv1, .ok .dfltBv1, .ok .dfltSv2, .ok .dfltBv2, .ok .dfltSv3, .ok .dfltBv3, .ok .dfltMid,
      .ok .dfltDid] := rfl

/-- `SETF f, imm`: 0x50000000 | f<<20 | imm, f = 0..9 (41_operand_commands.md R90). -/
theorem test_decode_setf :
    ([0x50000001, 0x5010FFFF, 0x50208000, 0x50300000, 0x50400002, 0x50500007, 0x50600004, 0x50700006, 0x5080FF9C,
      0x5090BEEF] : List CmdWord).map decode =
      [.ok (.setfRst 0x0001), .ok (.setfEn1 0xFFFF), .ok (.setfEn2 0x8000), .ok (.setfEn3 0x0000),
      .ok (.setfAvg 0x0002), .ok (.setfBct 0x0007), .ok (.setfSct 0x0004), .ok (.setfMode 0x0006),
      .ok (.setfVolt 0xFF9C), .ok (.setfId 0xBEEF)] := rfl

/-- `GETF f`: 0x60000000 | f<<20 (41_operand_commands.md R91). -/
theorem test_decode_getf :
    ([0x60000000, 0x60100000, 0x60200000, 0x60300000, 0x60400000, 0x60500000, 0x60600000, 0x60700000, 0x60800000,
      0x60900000] : List CmdWord).map decode =
      [.ok .getfRst, .ok .getfEn1, .ok .getfEn2, .ok .getfEn3, .ok .getfAvg, .ok .getfBct, .ok .getfSct, .ok .getfMode,
      .ok .getfVolt, .ok .getfId] := rfl

/-- `LDB imm`: 0x70000000 | imm; `GETB`: 0x80000000 (41_operand_commands.md R92, R93). -/
theorem test_decode_ldb_getb :
    ([0x70005449, 0x7000FFFF, 0x80000000] : List CmdWord).map decode =
      [.ok (.ldb 0x5449), .ok (.ldb 0xFFFF), .ok .getb] := rfl

/-- `RD k`: 0x9k000000 (42_access_protocol.md R100). -/
theorem test_decode_rd :
    ([0x90000000, 0x91000000, 0x92000000, 0x93000000, 0x94000000, 0x95000000, 0x96000000, 0x97000000,
      0x98000000] : List CmdWord).map decode =
      [.ok .rdCfg, .ok .rdSv1, .ok .rdBv1, .ok .rdSv2, .ok .rdBv2, .ok .rdSv3, .ok .rdBv3, .ok .rdMid,
      .ok .rdDid] := rfl

/-- `WR k`: 0xAk000000 (42_access_protocol.md R101). -/
theorem test_decode_wr :
    ([0xA0000000, 0xA1000000, 0xA2000000, 0xA3000000, 0xA4000000, 0xA5000000, 0xA6000000, 0xA7000000,
      0xA8000000] : List CmdWord).map decode =
      [.ok .wrCfg, .ok .wrSv1, .ok .wrBv1, .ok .wrSv2, .ok .wrBv2, .ok .wrSv3, .ok .wrBv3, .ok .wrMid,
      .ok .wrDid] := rfl

/-- `MODF CFG, f, imm`: 0xB0000000 | f<<20 | imm, f = 0..7 (42_access_protocol.md R103). -/
theorem test_decode_modf_cfg :
    ([0xB0000001, 0xB010FFFF, 0xB0208000, 0xB0300000, 0xB0400002, 0xB0500007, 0xB0600004,
      0xB0700006] : List CmdWord).map decode =
      [.ok (.modfCfgRst 0x0001), .ok (.modfCfgEn1 0xFFFF), .ok (.modfCfgEn2 0x8000), .ok (.modfCfgEn3 0x0000),
      .ok (.modfCfgAvg 0x0002), .ok (.modfCfgBct 0x0007), .ok (.modfCfgSct 0x0004), .ok (.modfCfgMode 0x0006)] := rfl

/-- `MODF k, volt, imm` for k = 1..6 and `MODF k, id, imm` for k = 7, 8 (42_access_protocol.md R103). -/
theorem test_decode_modf_single :
    ([0xB1800001, 0xB2800002, 0xB3800003, 0xB4800004, 0xB5800005, 0xB6800006, 0xB7901234,
      0xB8901234] : List CmdWord).map decode =
      [.ok (.modfSv1Volt 1), .ok (.modfBv1Volt 2), .ok (.modfSv2Volt 3), .ok (.modfBv2Volt 4), .ok (.modfSv3Volt 5),
      .ok (.modfBv3Volt 6), .ok (.modfMidId 0x1234), .ok (.modfDidId 0x1234)] := rfl

/-- Illegal words, one for every check of 30_encoding.md R56 (95_test_vectors.md V45 to V55). -/
theorem test_decode_illegal :
    ([0x00000000, 0xFFFFFFFF, 0xC0000000, 0x20010000, 0x20000001, 0x51000000, 0x60700001, 0x19000000, 0x50A00000, 0xB0800005,
      0xB1700006] : List CmdWord).map decode =
      [.error .op, .error .op, .error .op, .error .zero, .error .unused, .error .unused, .error .unused, .error .kind,
      .error .fld, .error .fldOfKind, .error .fldOfKind] := rfl

/-- The host's reading of a table word: 32 bits are the word; more than a command are none. -/
theorem test_decodeTableWord :
    decodeTableWord 32 0x98000000 = some .rdDid ∧ decodeTableWord 32 0 = none ∧ decodeTableWord 48 0x98000000 = none := ⟨rfl, rfl, rfl⟩

/-! ## The assembler's checks refuse ill-formed lines (30_encoding.md R53, R57) -/

/-- A number above 0xFFFF, against the largest that fits. -/
theorem test_wellFormed_number :
    (Asm.setf .id (.num 0x10000)).wellFormed = false ∧ (Asm.setf .id (.num 0xFFFF)).wellFormed = true ∧
    (Asm.ldb (.num 0x10000)).wellFormed = false := ⟨rfl, rfl, rfl⟩

/-- A signed number outside -4096..4095, or for another field than `volt`. -/
theorem test_wellFormed_signed :
    (Asm.setf .volt (.signed (-4097))).wellFormed = false ∧ (Asm.setf .volt (.signed 4096)).wellFormed = false ∧
    (Asm.setf .id (.signed (-1))).wellFormed = false ∧ (Asm.setf .volt (.signed (-4096))).wellFormed = true := by decide

/-- A variant name for a field of another type. -/
theorem test_wellFormed_variant :
    (Asm.setf .avg (.mode .powerDown)).wellFormed = false ∧ (Asm.setf .mode (.convTime .ct140us)).wellFormed = false ∧
    (Asm.setf .bct (.averages .avg4)).wellFormed = false ∧ (Asm.setf .sct (.convTime .ct140us)).wellFormed = true := by decide

/-- `LDB` takes no variant name and no signed number. -/
theorem test_wellFormed_ldb :
    (Asm.ldb (.mode .powerDown)).wellFormed = false ∧ (Asm.ldb (.signed (-1))).wellFormed = false := ⟨rfl, rfl⟩

/-- `MODF` with a field the kind does not have, for each layout class (95_test_vectors.md V52, V53). -/
theorem test_wellFormed_modf :
    (Asm.modf .cfg .volt (.num 5)).wellFormed = false ∧ (Asm.modf .sv1 .mode (.num 6)).wellFormed = false ∧
    (Asm.modf .mid .volt (.num 1)).wellFormed = false ∧ (Asm.modf .did .id (.num 1)).wellFormed = true := by decide

/-! ## Lines of text (the examples of 30_encoding.md R57) -/

theorem test_line_examples :
    ["ADDR MID", "ENC CFG", "SETF mode, BusVoltContinuous", "SETF volt, -1", "LDB 0x5449", "MODF CFG, en1, 1"].map assembleLine =
      [some 0x17000000, some 0x20000000, some 0x50700006, some 0x5080FFFF, some 0x70005449, some 0xB0100001] := by decide +kernel

/-- Lines of 95_test_vectors.md (V34, V62, P1 step 4) and lines that are none. -/
theorem test_line_more :
    ["MODF CFG, avg, 5", "SETF volt, -100", "SETF avg, Avg16", "GETB", "MODF CFG, volt, 5", "ADDR", "ENC XYZ", "SETF volt, -4097"].map
      assembleLine =
      [some 0xB0400005, some 0x5080FF9C, some 0x50400002, some 0x80000000, none, none, none, none] := by decide +kernel

/-- Pseudo-operations of 95_test_vectors.md V67, V69, V72; a channel that is not 1..3 (43_facade_pseudo_ops.md R122). -/
theorem test_line_pseudo :
    ["ENCH 2", "SETAVG Avg1024", "SHUNTV 3", "SETMODE 6", "BUSV 4", "SETBCT 8"].map readPseudo =
      [some (.ench .ch2), some (.setavg .avg1024), some (.shuntv .ch3), some (.setmode .busVoltContinuous), none, none] := by
  decide +kernel

/-- The commands of 95_test_vectors.md V66, V67, V70, V72, V74. -/
theorem test_expand :
    ([.reset, .ench .ch2, .getavg, .shuntv .ch3, .dieid] : List Pseudo).map (fun p => (expand p).map encode) =
      [[0x40000000, 0x50000001, 0xA0000000], [0xB0200001], [0x90000000, 0x60400000], [0x95000000, 0x60800000],
       [0x98000000, 0x60900000]] := rfl

/-! ## Field primitives and enumerations (95_test_vectors.md V1 to V13, V40) -/

theorem test_extract :
    extractBits 0x0127 0 3 = 7 ∧ extractBits 0x0127 3 3 = 4 ∧ extractBits 0x0127 6 3 = 4 ∧ extractBits 0x0127 9 3 = 0 ∧
    extractBits 0x8000 15 1 = 1 ∧ extractBits 0xFFF8 3 13 = 0x1FFF := by decide

theorem test_insert :
    insertBits 0x0127 0 3 6 = 0x0126 ∧ insertBits 0x0124 14 1 1 = 0x4124 ∧ insertBits 0xA5C3 9 3 5 = 0xABC3 ∧
    insertBits 0xFFFF 3 3 0 = 0xFFC7 ∧ insertBits 0x0127 6 3 7 = 0x01E7 ∧ insertBits 0x7127 13 1 0 = 0x5127 ∧
    insertBits 0x0000 0 3 0xE = 0x0006 := by decide

/-- The partial table of V40: A is 0, B is 1, C is 3 (variants named by numbers here). -/
def partialTable : List (Fin 3 × Word) := [(0, 0), (1, 1), (2, 3)]

theorem test_partial_enumeration :
    enumDec partialTable 2 = none ∧ enumDec partialTable 3 = some 2 ∧ enumEnc partialTable 2 = some 3 := by decide

/-- 10_state.md R23, R24: the physical values of the codes. -/
theorem test_physical_values :
    convTimeTable.map (fun r => microseconds r.1) = [140, 204, 332, 588, 1100, 2116, 4156, 8244] ∧
    averagesTable.map (fun r => samples r.1) = [1, 4, 16, 64, 128, 256, 512, 1024] := by decide

/-! ## States to step from -/

/-- After reset, with these Configuration cells. -/
def withCfg (c : Cfg) : State := { State.reset with t := { State.reset.t with cfg := c } }

/-- After reset, with this voltage cell. -/
def withVolt (v : Word) : State := { State.reset with t := { State.reset.t with volt := v } }

/-- After reset, with this image in `B`. -/
def withImage (W : Word) : State := { State.reset with b := ⟨W.extractLsb' 8 8, W.extractLsb' 0 8⟩ }

/-- After reset on the ideal device with `DEV[p] = W`, and these turns to come. -/
def onDevice (p : Byte) (W : Word) (script : List Turn) : State :=
  { State.reset with world := { oracle := .ideal, script := script, draws := 0, dev := devWrite [] p W, ptr := 0 } }

/-- A turn that fails. -/
def failing (ph : Phase) (e : TErr) : Turn := { failure := some (ph, e) }

/-- A turn the transport never answers. -/
def unanswered : Turn := { silent := true }

/-- What a view shows of the next state. -/
def seen {A : Type} (view : State → A) : Out → Option A
  | .next t => some (view t)
  | _ => none

/-- What a view shows of the state a pseudo-operation leaves, with its result. -/
def seenPseudo {A : Type} (view : State → A) : Host.Outcome (PseudoResult × State) Fault Refusal → Option (PseudoResult × A)
  | .next (r, t) => some (r, view t)
  | _ => none

/-- An entry of `BUSLOG` without its device address, whose value is open. -/
inductive Wire where
  | read (p : Byte) (a : ReadAnswer)
  | write (p : Byte) (b0 b1 : Byte) (a : WriteAnswer)
  deriving DecidableEq, Repr

/-- The entries of `BUSLOG` without the device address. -/
def wires (s : State) : List Wire :=
  s.buslog.map fun e =>
    match e with
    | .read _ p a => .read p a
    | .write _ p b0 b1 a => .write p b0 b1 a

/-- The image a device register holds. -/
def dev (s : State) (p : Byte) : Option Byte × Option Byte := (memRead? s.world.dev (hiAddr p), memRead? s.world.dev (loAddr p))

/-! ## ADDR, ENC, DEC, DFLT -/

/-- V65. -/
theorem test_addr :
    ([.addrCfg, .addrSv1, .addrBv1, .addrSv2, .addrBv2, .addrSv3, .addrBv3, .addrMid, .addrDid] : List Instr).map
      (fun i => seen (fun s => s.res.data) (exec i State.reset)) =
      [some 0, some 1, some 2, some 3, some 4, some 5, some 6, some 0x00FE, some 0x00FF] := rfl

/-- V14, S6: the default image after reset, first byte first. -/
theorem test_enc_cfg_default : seen (fun s => (s.b, s.res)) (exec .encCfg State.reset) = some (⟨0x01, 0x27⟩, ⟨.ok, 0x0127, none⟩) :=
  rfl

/-- V20, V21: fields all different, and a reserved mode. -/
theorem test_enc_cfg_fields :
    seen (fun s => s.res.data) (exec .encCfg (withCfg ⟨true, false, true, false, .avg16, .ct8244us, .ct140us, .shuntBusSingle⟩)) =
      some 0xA5C3 ∧
    seen (fun s => s.res.data) (exec .encCfg (withCfg ⟨false, true, false, true, .avg256, .ct140us, .ct8244us, .reserved4⟩)) =
      some 0x5A3C := ⟨rfl, rfl⟩

/-- V20, V21, S5: the same in the other direction; mode 0b100 is a value. -/
theorem test_dec_cfg :
    seen (fun s => s.t.cfg) (exec .decCfg (withImage 0xA5C3)) =
      some ⟨true, false, true, false, .avg16, .ct8244us, .ct140us, .shuntBusSingle⟩ ∧
    seen (fun s => (s.t.cfg.mode, s.res.status)) (exec .decCfg (withImage 0x0124)) = some (.reserved4, .ok) := ⟨rfl, rfl⟩

/-- S11, V22: bit 15 is the top bit of the first byte. -/
theorem test_dec_cfg_reset_flag :
    seen (fun s => s.t.cfg) (exec .decCfg (withImage 0x8000)) =
      some ⟨true, false, false, false, .avg1, .ct140us, .ct140us, .powerDown⟩ := rfl

/-- V25, V27, V26, V29, V30 and 0, one for each voltage kind. -/
theorem test_enc_volt :
    ([(.encSv1, 0xFFFF), (.encBv1, 0xF000), (.encSv2, 0x0FFF), (.encBv2, 0xFF9C), (.encSv3, 0x03E8), (.encBv3, 0x0000)] :
      List (Instr × Word)).map (fun p => seen (fun s => s.res.data) (exec p.1 (withVolt p.2))) =
      [some 0xFFF8, some 0x8000, some 0x7FF8, some 0xFCE0, some 0x1F40, some 0x0000] := rfl

/-- V31b, V31d, V31f, V31g, V31i, V31j: sign extension, low bits ignored, one for each voltage kind. -/
theorem test_dec_volt :
    ([(.decSv1, 0x000F), (.decBv1, 0xFFFF), (.decSv2, 0x8007), (.decBv2, 0x7FFF), (.decSv3, 0x1234), (.decBv3, 0xABCD)] :
      List (Instr × Word)).map (fun p => seen (fun s => s.t.volt) (exec p.1 (withImage p.2))) =
      [some 0x0001, some 0xFFFF, some 0xF000, some 0x0FFF, some 0x0246, some 0xF579] := rfl

/-- V32a, V32b, V32d: identifiers are not sign-extended, and not compared with anything. -/
theorem test_dec_id :
    ([(.decMid, 0x5449), (.decDid, 0x3220), (.decMid, 0xFFFF)] : List (Instr × Word)).map
      (fun p => seen (fun s => (s.t.id, s.res.status)) (exec p.1 (withImage p.2))) =
      [some (0x5449, .ok), some (0x3220, .ok), some (0xFFFF, .ok)] := rfl

/-- V32b, V32e: the bytes of an identifier. -/
theorem test_enc_id :
    ([(.encDid, 0x3220), (.encMid, 0x8001)] : List (Instr × Word)).map
      (fun p => seen (fun s => s.b) (exec p.1 { State.reset with t := { State.reset.t with id := p.2 } })) =
      [some ⟨0x32, 0x20⟩, some ⟨0x80, 0x01⟩] := rfl

/-- 10_state.md R26: defaults, and cells of other kinds kept. -/
theorem test_dflt :
    seen (fun s => (s.t.cfg, s.res.data)) (exec .dfltCfg (withCfg ⟨true, true, true, true, .avg1024, .ct140us, .ct140us, .powerDown⟩)) =
      some (⟨false, false, false, false, .avg1, .ct1100us, .ct1100us, .shuntBusContinuous⟩, 0) ∧
    ([.dfltSv1, .dfltBv1, .dfltSv2, .dfltBv2, .dfltSv3, .dfltBv3, .dfltMid, .dfltDid] : List Instr).map
      (fun i => seen (fun s => (s.t.volt, s.t.id)) (exec i { State.reset with t := { State.reset.t with volt := 5, id := 6 } })) =
      [some (0, 6), some (0, 6), some (0, 6), some (0, 6), some (0, 6), some (0, 6), some (5, 0), some (5, 0)] := ⟨rfl, rfl⟩

/-! ## SETF, GETF, LDB, GETB -/

/-- V56 to V63: clipping. -/
theorem test_setf :
    ([.setfRst 0xFFFE, .setfRst 0xFFFF, .setfMode 0x000E, .setfMode 4, .setfVolt 0x1000, .setfVolt 0x2001, .setfVolt 0xFF9C,
      .setfId 0xBEEF] : List Instr).map (fun i => seen (fun s => s.res.data) (exec i State.reset)) =
      [some 0, some 1, some 6, some 4, some 0xF000, some 0x0001, some 0xFF9C, some 0xBEEF] := rfl

/-- 30_encoding.md R55: each of the other cells takes its own low bits, and only it. -/
theorem test_setf_cells :
    ([.setfEn1 1, .setfEn2 1, .setfEn3 1, .setfAvg 0xFFFA, .setfBct 7, .setfSct 0] : List Instr).map
      (fun i => seen (fun s => s.t.cfg) (exec i State.reset)) =
      [some ⟨false, true, false, false, .avg1, .ct1100us, .ct1100us, .shuntBusContinuous⟩,
       some ⟨false, false, true, false, .avg1, .ct1100us, .ct1100us, .shuntBusContinuous⟩,
       some ⟨false, false, false, true, .avg1, .ct1100us, .ct1100us, .shuntBusContinuous⟩,
       some ⟨false, false, false, false, .avg16, .ct1100us, .ct1100us, .shuntBusContinuous⟩,
       some ⟨false, false, false, false, .avg1, .ct8244us, .ct1100us, .shuntBusContinuous⟩,
       some ⟨false, false, false, false, .avg1, .ct1100us, .ct140us, .shuntBusContinuous⟩] := rfl

/-- R91, R28: the cells after reset, every field. -/
theorem test_getf :
    ([.getfRst, .getfEn1, .getfEn2, .getfEn3, .getfAvg, .getfBct, .getfSct, .getfMode, .getfVolt, .getfId] : List Instr).map
      (fun i => seen (fun s => s.res.data) (exec i State.reset)) =
      [some 0, some 0, some 0, some 0, some 0, some 4, some 4, some 7, some 0, some 0] := rfl

/-- V64. -/
theorem test_ldb : seen (fun s => (s.b, s.res.data)) (exec (.ldb 0x5449) State.reset) = some (⟨0x54, 0x49⟩, 0x5449) := rfl

theorem test_getb : seen (fun s => s.res) (exec .getb (withImage 0x5449)) = some ⟨.ok, 0x5449, none⟩ := rfl

/-! ## RD, WR, MODF -/

/-- S8, R100: the register read, its bytes, the one transaction. -/
theorem test_rd_mid :
    seen (fun s => (s.t.id, s.b, s.res, wires s)) (exec .rdMid (onDevice 0xFE 0x5449 [])) =
      some (0x5449, ⟨0x54, 0x49⟩, ⟨.ok, 0x5449, none⟩, [.read 0xFE (.bytes 0x54 0x49)]) := rfl

/-- R100: every other kind reads its own register; the low bits of a voltage stay in `B` and do not reach the cell. -/
theorem test_rd_kinds :
    ([(.rdSv1, 0x01), (.rdBv1, 0x02), (.rdSv2, 0x03), (.rdBv2, 0x04), (.rdSv3, 0x05), (.rdBv3, 0x06)] : List (Instr × Byte)).map
      (fun p => seen (fun s => (s.t.volt, s.b)) (exec p.1 (onDevice p.2 0xFCE5 []))) =
      List.replicate 6 (some (0xFF9C, ⟨0xFC, 0xE5⟩)) ∧
    seen (fun s => s.t.cfg.mode) (exec .rdCfg (onDevice 0x00 0x0124 [])) = some .reserved4 ∧
    seen (fun s => s.t.id) (exec .rdDid (onDevice 0xFF 0x3220 [])) = some 0x3220 := ⟨rfl, rfl, rfl⟩

/-- V41: a failed read writes only `RES`. -/
theorem test_rd_fails :
    seen (fun s => (s.t, s.b, s.res, wires s)) (exec .rdCfg (onDevice 0x00 0x0127 [failing .dataWrite ⟨1⟩])) =
      some (State.reset.t, ⟨0, 0⟩, ⟨.transportError, 0, some ⟨1⟩⟩, [.read 0x00 (.failed ⟨1⟩)]) := rfl

/-- V14 over P4: the cells replace the whole register. -/
theorem test_wr_cfg :
    seen (fun s => (s.b, s.res, wires s, dev s 0x00)) (exec .wrCfg (onDevice 0x00 0x5A3C [])) =
      some (⟨0x01, 0x27⟩, ⟨.ok, 0x0127, none⟩, [.write 0x00 0x01 0x27 .success], (some 0x01, some 0x27)) := rfl

/-- 92 D19: every kind is written at its own address. -/
theorem test_wr_kinds :
    ([.wrSv1, .wrBv1, .wrSv2, .wrBv2, .wrSv3, .wrBv3, .wrMid, .wrDid] : List Instr).map
      (fun i => seen wires (exec i { onDevice 0x00 0 [] with t := { State.reset.t with volt := 0xFF9C, id := 0x1234 } })) =
      [some [.write 0x01 0xFC 0xE0 .success], some [.write 0x02 0xFC 0xE0 .success], some [.write 0x03 0xFC 0xE0 .success],
       some [.write 0x04 0xFC 0xE0 .success], some [.write 0x05 0xFC 0xE0 .success], some [.write 0x06 0xFC 0xE0 .success],
       some [.write 0xFE 0x12 0x34 .success], some [.write 0xFF 0x12 0x34 .success]] := rfl

/-- V44: a failed pointer phase; the data phase is not issued (20_memory.md R35). -/
theorem test_wr_fails :
    seen (fun s => (s.b, s.res, wires s)) (exec .wrCfg (onDevice 0x00 0 [failing .pointerSet ⟨4⟩])) =
      some (⟨0, 0⟩, ⟨.transportError, 0, some ⟨4⟩⟩, [.write 0x00 0x01 0x27 (.failed .pointerSet ⟨4⟩)]) ∧
    dataPhaseIssued (.failed .pointerSet ⟨4⟩) = false := ⟨rfl, rfl⟩

/-- V33 to V38: what is left in the register. -/
theorem test_modf_cfg :
    ([(.modfCfgEn1 1, 0x0124), (.modfCfgAvg 5, 0xA5C3), (.modfCfgBct 7, 0x0127), (.modfCfgSct 0, 0x0127), (.modfCfgEn2 0, 0x7127),
      (.modfCfgMode 7, 0x0127), (.modfCfgEn3 1, 0x8127), (.modfCfgRst 0, 0x8127)] : List (Instr × Word)).map
      (fun p => seen (fun s => dev s 0x00) (exec p.1 (onDevice 0x00 p.2 []))) =
      [some (some 0x41, some 0x24), some (some 0xAB, some 0xC3), some (some 0x01, some 0xE7), some (some 0x01, some 0x07),
       some (some 0x51, some 0x27), some (some 0x01, some 0x27), some (some 0x91, some 0x27), some (some 0x01, some 0x27)] := rfl

/-- S7: the source's end-to-end scenario. -/
theorem test_modf_scenario :
    seen (fun s => (s.t.cfg.mode, s.b, s.res, wires s)) (exec (.modfCfgMode 6) (onDevice 0x00 0x0127 [])) =
      some (.busVoltContinuous, ⟨0x01, 0x26⟩, ⟨.ok, 0x0126, none⟩, [.read 0x00 (.bytes 0x01 0x27), .write 0x00 0x01 0x26 .success]) := rfl

/-- V39a, V39b: registers of one field are replaced whole. -/
theorem test_modf_single :
    ([(.modfSv1Volt 5, 0x01), (.modfBv1Volt 5, 0x02), (.modfSv2Volt 5, 0x03), (.modfBv2Volt 5, 0x04), (.modfSv3Volt 5, 0x05),
      (.modfBv3Volt 5, 0x06)] : List (Instr × Byte)).map (fun p => seen (fun s => dev s p.2) (exec p.1 (onDevice p.2 0x1237 []))) =
      List.replicate 6 (some (some 0x00, some 0x28)) ∧
    ([(.modfMidId 0x1234, 0xFE), (.modfDidId 0x1234, 0xFF)] : List (Instr × Byte)).map
      (fun p => seen (fun s => dev s p.2) (exec p.1 (onDevice p.2 0x5449 []))) =
      List.replicate 2 (some (some 0x12, some 0x34)) := ⟨rfl, rfl⟩

/-- V42, V43: a failed read issues no write; a failed write leaves `T` and `B`. -/
theorem test_modf_fails :
    seen (fun s => (s.t, s.b, s.res, wires s)) (exec (.modfCfgMode 6) (onDevice 0x00 0x0127 [failing .dataWrite ⟨2⟩])) =
      some (State.reset.t, ⟨0, 0⟩, ⟨.transportError, 0, some ⟨2⟩⟩, [.read 0x00 (.failed ⟨2⟩)]) ∧
    seen (fun s => (s.t, s.b, s.res, wires s)) (exec (.modfCfgMode 6) (onDevice 0x00 0x0127 [{}, failing .dataWrite ⟨3⟩])) =
      some (State.reset.t, ⟨0, 0⟩, ⟨.transportError, 0, some ⟨3⟩⟩,
        [.read 0x00 (.bytes 0x01 0x27), .write 0x00 0x01 0x26 (.failed .dataWrite ⟨3⟩)]) := ⟨rfl, rfl⟩

/-- P6: another actor's write in the window is lost, with status OK. -/
theorem test_modf_lost_update :
    seen (fun s => (s.res, dev s 0x00)) (exec (.modfCfgAvg 1) (onDevice 0x00 0x0127 [{}, { before := [⟨0x00, 0x7127⟩] }])) =
      some (⟨.ok, 0x0327, none⟩, (some 0x03, some 0x27)) := rfl

/-! ## Steps -/

/-- V45, V52: an illegal word is reported and the host moves on. -/
theorem test_step_illegal :
    seen (fun s => (s.res, s.t, s.buslog, s.pos)) (step (State.reset.withFetchWord 32 0xB0800005)) =
      some (⟨.illegalCommand, 0, none⟩, State.reset.t, [], 1) ∧
    seen (fun s => s.res.status) (step (State.reset.withFetchWord 32 0)) = some .illegalCommand := ⟨rfl, rfl⟩

/-- The first command after reset (S4b's `GETF`, P1 step 1). -/
theorem test_step_first :
    seen (fun s => (s.res.data, s.pending, s.pos)) (step (State.reset.withFetchWord 32 0x60700000)) = some (7, [], 1) := rfl

/-- 70_reset_and_hazards.md R150: an engine reset leaves the device alone. -/
theorem test_engine_reset :
    seen (fun s => (s.b, dev s 0x00, s.buslog)) (step { onDevice 0x00 0x1234 [] with b := ⟨1, 2⟩, pending := [.engineReset] }) =
      some (⟨0, 0⟩, (some 0x12, some 0x34), []) := rfl

/-! ## Facade (95_test_vectors.md V66, V71 to V75) -/

theorem test_facade_reset :
    seenPseudo (fun s => (wires s, dev s 0x00)) (runPseudo .reset (onDevice 0x00 0x7E3D [])) =
      some (.done, [.write 0x00 0x81 0x27 .success], (some 0x81, some 0x27)) := rfl

theorem test_facade_gets :
    seenPseudo wires (runPseudo .getmode (onDevice 0x00 0x0124 [])) = some (.mode .reserved4, [.read 0x00 (.bytes 0x01 0x24)]) ∧
    seenPseudo wires (runPseudo (.shuntv .ch3) (onDevice 0x05 0xFCE0 [])) = some (.microvolts (-4000), [.read 0x05 (.bytes 0xFC 0xE0)]) ∧
    seenPseudo wires (runPseudo (.busv .ch2) (onDevice 0x04 0x1F40 [])) = some (.millivolts 8000, [.read 0x04 (.bytes 0x1F 0x40)]) ∧
    seenPseudo wires (runPseudo .dieid (onDevice 0xFF 0x3220 [])) = some (.ident 0x3220, [.read 0xFF (.bytes 0x32 0x20)]) := by
  refine ⟨rfl, rfl, rfl, rfl⟩

theorem test_facade_stops :
    seenPseudo (fun s => (wires s, s.res.status)) (runPseudo .getmode (onDevice 0x00 0x0127 [failing .dataWrite ⟨5⟩])) =
      some (.error .transportError (some ⟨5⟩), [.read 0x00 (.failed ⟨5⟩)], .transportError) := rfl

/-! ## Witnesses: a state and operands that meet the hypotheses of each obligation that has any -/

theorem witness_EncodeOfDecode : decode 0xB0400005 = .ok (.modfCfgAvg 5) := rfl

theorem witness_LegalWordsAreTheTableRows :
    (∃ r ∈ opcodeRows, r.selects 0x98000000 = true) ∧ (∃ r ∈ opcodeRows, r.selects 0xB890FFFF = true) := by decide

/-- The boundaries of the three clauses for `MODF`: CFG with rst and with mode, SV1 and BV3 with volt, MID and DID with id; and the
pairs just outside. -/
theorem witness_LegalWordsByFields :
    ([0xB0000000, 0xB0700000, 0xB1800000, 0xB6800000, 0xB7900000, 0xB8900000, 0xB0800000, 0xB1700000, 0xB1900000, 0xB6900000,
      0xB7800000, 0xB9900000] : List CmdWord).map (fun c => (decode c).toOption.isSome) =
      [true, true, true, true, true, true, false, false, false, false, false, false] := rfl

theorem witness_StepRunsTheDecodedCommand :
    ∃ s : State, s.pending = [.command 0x17000000] ∧ decode 0x17000000 = .ok .addrMid := ⟨placeCommand 0x17000000 State.reset, rfl, rfl⟩

theorem witness_IllegalWordsReportIllegalCommand :
    (∃ s : State, s.pending = [.command 0]) ∧ ∀ r ∈ opcodeRows, r.selects 0 = false := ⟨⟨placeCommand 0 State.reset, rfl⟩, by decide⟩

theorem witness_StepWithoutACommand : (∃ s : State, s.pending = [.engineReset]) ∧ State.reset.pending = [] :=
  ⟨⟨{ State.reset with pending := [.engineReset] }, rfl⟩, rfl⟩

theorem witness_StepKeepsInv : Inv State.reset ∧ ∃ t, step (State.reset.withFetchWord 32 0x90000000) = .next t :=
  ⟨⟨rfl, rfl, rfl, by intro e h; cases h⟩, _, rfl⟩

theorem witness_CommandsLeaveTheHostSideAlone :
    (∃ t, exec .getb State.reset = .next t) ∧
    ∃ s t : State, s.pending = [.command 0x80000000] ∧ step s = .next t := ⟨⟨_, rfl⟩, placeCommand 0x80000000 State.reset, _, rfl, rfl⟩

/-- Two, one and no entries more. -/
theorem witness_BuslogIsOnlyAddedTo :
    (∃ t, exec (.modfCfgMode 6) (onDevice 0x00 0x0127 []) = .next t) ∧ (∃ t, exec .rdCfg (onDevice 0x00 0x0127 []) = .next t) ∧
    ∃ t, exec .getb State.reset = .next t := ⟨⟨_, rfl⟩, ⟨_, rfl⟩, _, rfl⟩

theorem witness_ErrorsWriteOnlyRes :
    ∃ t, exec .rdCfg (onDevice 0x00 0 [failing .dataWrite ⟨1⟩]) = .next t ∧ t.res.status ≠ .ok := ⟨_, rfl, by decide⟩

theorem witness_CodecErrorsNeverHappen : ∃ t, exec .decCfg State.reset = .next t := ⟨_, rfl⟩

theorem witness_CommandsCompleteIfTheTransportAnswers : transportAnswers State.reset := ⟨rfl, rfl⟩

/-- The last operation that uses no transaction and the first that does. -/
theorem witness_QuietCommandsAlwaysComplete : Spec.usesBus .getb = false ∧ Spec.usesBus .rdCfg = true := ⟨rfl, rfl⟩

theorem witness_TransactionShapes :
    (∃ t, exec (rdOf .did) (onDevice 0xFF 0 []) = .next t) ∧ (∃ t, exec (wrOf .did) (onDevice 0xFF 0 []) = .next t) ∧
    (∃ i t, modfOf .did .id 1 = some i ∧ exec i (onDevice 0xFF 0 []) = .next t) ∧
    (∃ t, Spec.usesBus .getb = false ∧ exec .getb State.reset = .next t) ∧
    ∃ t, (∀ i, decode 0 ≠ .ok i) ∧ issue 0 State.reset = .next t :=
  ⟨⟨_, rfl⟩, ⟨_, rfl⟩, ⟨_, _, rfl, rfl⟩, ⟨_, rfl, rfl⟩, _, fun i h => (by cases h), rfl⟩

theorem witness_AddressTables : address .sv1 = address .sv1 ∧ Config.devAddr 3 = Config.devAddr 3 := ⟨rfl, rfl⟩

theorem witness_EncVoltLeftJustifies : layoutOf .sv1 = .volt ∧ layoutOf .bv3 = .volt := ⟨rfl, rfl⟩

theorem witness_DecVoltSignExtends : layoutOf .sv1 = .volt ∧ layoutOf .bv3 = .volt := ⟨rfl, rfl⟩

theorem witness_EncIdCopies : layoutOf .mid = .id ∧ layoutOf .did = .id := ⟨rfl, rfl⟩

theorem witness_DecIdCopies : layoutOf .mid = .id ∧ layoutOf .did = .id := ⟨rfl, rfl⟩

/-- The whole word and its top bit as fields; two images that agree on a field; two disjoint fields that touch. -/
theorem witness_FieldPrimitiveLaws :
    (1 ≤ 16 ∧ 0 + 16 ≤ 16) ∧ (1 ≤ 1 ∧ 15 + 1 ≤ 16) ∧
    (∀ j, 3 ≤ j → j < 3 + 3 → (0x0127 : Word).getLsbD j = (0x0120 : Word).getLsbD j) ∧ (6 + 3 ≤ 16 ∧ (6 + 3 ≤ 3 ∨ 3 + 3 ≤ 6)) := by
  refine ⟨by decide, by decide, ?_, by decide⟩
  intro j h1 h2
  interval_cases j <;> rfl

/-- The table of V40: a code of no row, and no code twice. -/
theorem witness_ClosedEnumerations :
    (∀ row ∈ partialTable, row.2 ≠ 2) ∧ partialTable.Pairwise (fun a b => a.2 ≠ b.2) ∧ (2, 3) ∈ partialTable := by
  refine ⟨by simp [partialTable], by simp [partialTable], by simp [partialTable]⟩

theorem witness_EnumerationTablesAreTotal : (0 : Word).toNat < 8 ∧ (7 : Word).toNat < 8 := by decide

/-- -4096 and the value at reset are legal; 4096 as a pattern is not. -/
theorem witness_RoundTripFromTypedValues :
    voltLegal (withVolt 0xF000).t.volt = true ∧ voltLegal State.reset.t.volt = true ∧ voltLegal 0x1000 = false := ⟨rfl, rfl, rfl⟩

/-- -4096 and 4095. -/
theorem witness_VoltagesAsIntegers : voltLegal 0xF000 = true ∧ voltLegal 0x0FFF = true := ⟨rfl, rfl⟩

theorem witness_RdDeliversTheRegister :
    ∃ s bus, silentAt 0 s = false ∧ memRead s.aSel (address .mid) s.bus = (.bytes 0x54 0x49, bus) :=
  ⟨onDevice 0xFE 0x5449 [], _, rfl, rfl⟩

theorem witness_RdReportsTransportError :
    ∃ s bus, silentAt 0 s = false ∧ memRead s.aSel (address .cfg) s.bus = (.failed ⟨1⟩, bus) :=
  ⟨onDevice 0x00 0 [failing .dataWrite ⟨1⟩], _, rfl, rfl⟩

/-- The three answers to a write. -/
theorem witness_WrSendsTheCells :
    (∃ s bus, silentAt 0 s = false ∧ memWrite s.aSel (address .cfg) (Spec.imageOf .cfg s.t) s.bus = (.success, bus)) ∧
    ∀ ph, ∃ s bus, silentAt 0 s = false ∧ memWrite s.aSel (address .cfg) (Spec.imageOf .cfg s.t) s.bus = (.failed ph ⟨4⟩, bus) :=
  ⟨⟨onDevice 0x00 0 [], _, rfl, rfl⟩, fun ph => ⟨onDevice 0x00 0 [failing ph ⟨4⟩], _, rfl, rfl⟩⟩

theorem witness_ModfReadsModifiesWrites :
    ∃ s t' W bus1 bus2, modfOf .cfg .mode 6 = some (.modfCfgMode 6) ∧ transportAnswers s ∧
      memRead s.aSel (address .cfg) s.bus = (.bytes 0x01 0x27, bus1) ∧
      t' = Spec.setCell .mode 6 (Spec.loaded .cfg ((0x01 : Byte) ++ (0x27 : Byte)) s.t) ∧ W = Spec.imageOf .cfg t' ∧
      memWrite s.aSel (address .cfg) W bus1 = (.success, bus2) :=
  ⟨onDevice 0x00 0x0127 [], _, _, _, _, rfl, ⟨rfl, rfl⟩, rfl, rfl, rfl, rfl⟩

/-- The read fails; the write fails, in either phase. -/
theorem witness_ModfReportsTransportErrors :
    (∃ s bus, modfOf .cfg .mode 6 = some (.modfCfgMode 6) ∧ silentAt 0 s = false ∧
      memRead s.aSel (address .cfg) s.bus = (.failed ⟨2⟩, bus)) ∧
    ∀ ph, ∃ s bus1 bus2, modfOf .cfg .mode 6 = some (.modfCfgMode 6) ∧ transportAnswers s ∧
      memRead s.aSel (address .cfg) s.bus = (.bytes 0x01 0x27, bus1) ∧
      memWrite s.aSel (address .cfg)
        (Spec.imageOf .cfg (Spec.setCell .mode 6 (Spec.loaded .cfg ((0x01 : Byte) ++ (0x27 : Byte)) s.t))) bus1 =
        (.failed ph ⟨3⟩, bus2) :=
  ⟨⟨onDevice 0x00 0 [failing .dataWrite ⟨2⟩], _, rfl, rfl, rfl⟩,
   fun ph => ⟨onDevice 0x00 0x0127 [{}, failing ph ⟨3⟩], _, _, rfl, ⟨rfl, rfl⟩, rfl, rfl⟩⟩

/-- The two silent cases, and a fault from each. -/
theorem witness_SilentTransportHangs :
    (∃ s, Spec.usesBus .rdCfg = true ∧ silentAt 0 s = true ∧ exec .rdCfg s = .fault .transportSilent) ∧
    ∃ s, modfOf .cfg .mode 6 = some (.modfCfgMode 6) ∧ silentAt 0 s = false ∧ silentAt 1 s = true ∧
      (memRead s.aSel (address .cfg) s.bus).1 = .bytes 0x01 0x27 ∧ exec (.modfCfgMode 6) s = .fault .transportSilent :=
  ⟨⟨onDevice 0x00 0 [unanswered], rfl, rfl, rfl⟩, onDevice 0x00 0x0127 [{}, unanswered], rfl, rfl, rfl, rfl, rfl⟩

theorem witness_FieldIsolation :
    ∃ s t : State, modfOf .cfg .avg 5 = some (.modfCfgAvg 5) ∧ exec (.modfCfgAvg 5) s = .next t ∧ t.res.status = .ok :=
  ⟨onDevice 0x00 0xA5C3 [], _, rfl, rfl, rfl⟩

theorem witness_LatchesAreNotACache :
    (∃ s u : State, exec (rdOf .cfg) s = .next u ∧ u.res.status = .ok) ∧
    ∃ s u : State, modfOf .cfg .avg 5 = some (.modfCfgAvg 5) ∧ exec (.modfCfgAvg 5) s = .next u ∧ u.res.status = .ok :=
  ⟨⟨onDevice 0x00 0xA5C3 [], _, rfl, rfl⟩, onDevice 0x00 0xA5C3 [], _, rfl, rfl, rfl⟩

/-- The byte just outside the Configuration register is outside it; a `MODF` whose read succeeds and one whose read fails. -/
theorem witness_DeviceFrame :
    (∃ t, exec (rdOf .cfg) (onDevice 0x00 0 []) = .next t) ∧ (∃ t, exec (wrOf .cfg) (onDevice 0x00 0 []) = .next t) ∧
    (∃ t, modfOf .cfg .avg 5 = some (.modfCfgAvg 5) ∧ exec (.modfCfgAvg 5) (onDevice 0x00 0xA5C3 []) = .next t ∧
      t.res.status = .ok) ∧
    (∃ t, exec (.modfCfgAvg 5) (onDevice 0x00 0xA5C3 [failing .dataWrite ⟨2⟩]) = .next t ∧ t.res.status = .transportError) ∧
    2 ≠ hiAddr (address .cfg) ∧ 2 ≠ loAddr (address .cfg) :=
  ⟨⟨_, rfl⟩, ⟨_, rfl⟩, ⟨_, rfl, rfl, rfl⟩, ⟨_, rfl, rfl⟩, by decide, by decide⟩

theorem witness_TheLastWriteWins :
    (∃ s t : State, s.world.oracle = .ideal ∧ exec (wrOf .did) s = .next t ∧ t.res.status = .ok) ∧
    ∃ s t : State, s.world.oracle = .ideal ∧ modfOf .cfg .avg 1 = some (.modfCfgAvg 1) ∧ exec (.modfCfgAvg 1) s = .next t ∧
      t.res.status = .ok :=
  ⟨⟨onDevice 0xFF 0 [], _, rfl, rfl, rfl⟩,
   onDevice 0x00 0x0127 [{}, { before := [⟨0x00, 0x7127⟩] }], _, rfl, rfl, rfl, rfl⟩

theorem witness_IdealDeviceReadsBack :
    ∃ s : State, s.world.oracle = .ideal ∧ s.world.script = [] ∧ voltLegal s.t.volt = true := ⟨onDevice 0x00 0 [], rfl, rfl, rfl⟩

theorem witness_AFailedWriteLeavesADraw :
    ∀ ph, ∃ bus bus' : Bus, bus.world.oracle = .ideal ∧ memWrite 0 0x00 0x0126 bus = (.failed ph ⟨3⟩, bus') :=
  fun ph => ⟨(onDevice 0x00 0 [failing ph ⟨3⟩]).bus, _, rfl, rfl⟩

theorem witness_BigEndianOnTheWire : ∃ bus : Bus, (memRead 0 0xFE bus).1 = .bytes 0x54 0x49 :=
  ⟨(onDevice 0xFE 0x5449 []).bus, rfl⟩

theorem witness_SignedImmediatesReachTheCell : (-4096 ≤ (-4096 : Int) ∧ (-4096 : Int) ≤ 4095) ∧ -4096 ≤ (4095 : Int) := by decide

theorem witness_FacadeResetWritesOnce :
    (∃ s : State, silentAt 0 s = false ∧ (memWrite s.aSel 0x00 0x8127 s.bus).1 = .success) ∧
    ∃ s : State, silentAt 0 s = false ∧ (memWrite s.aSel 0x00 0x8127 s.bus).1 = .failed .pointerSet ⟨1⟩ :=
  ⟨⟨onDevice 0x00 0 [], rfl, rfl⟩, onDevice 0x00 0 [failing .pointerSet ⟨1⟩], rfl, rfl⟩

theorem witness_FacadeSetChangesOneField :
    Spec.target (.ench .ch2) = some (.en2, 1) ∧ ∃ t, runPseudo (.ench .ch2) (onDevice 0x00 0x0127 []) = .next (.done, t) :=
  ⟨rfl, _, rfl⟩

theorem witness_FacadeGetReadsAfresh :
    ∃ s bus, Spec.source (.busv .ch3) = some .bv3 ∧ silentAt 0 s = false ∧
      memRead s.aSel (address .bv3) s.bus = (.bytes 0x1F 0x40, bus) := ⟨onDevice 0x06 0x1F40 [], _, rfl, rfl, rfl⟩

theorem witness_FacadeGetStopsAtAFailedRead :
    ∃ s bus, Spec.source .getmode = some .cfg ∧ silentAt 0 s = false ∧
      memRead s.aSel (address .cfg) s.bus = (.failed ⟨5⟩, bus) := ⟨onDevice 0x00 0 [failing .dataWrite ⟨5⟩], _, rfl, rfl, rfl⟩

end Sys2Proof.Tests
end

/-! SUPPORT. Proofs of the family `10_state.md`: what a step can do, what no command reads, the invariant, reset, the tables. -/

namespace Sys2Proof.Machine

/-! ## What a step can do -/

/-- With nothing to present the engine waits (60_exceptions.md R136). -/
theorem step_of_waiting {s : State} (hp : s.pending = []) : step s = .next s := by
  simp only [step, hp]

theorem step_of_engineReset {s : State} {rest : List HostInput} (hp : s.pending = .engineReset :: rest) :
    step s = .next (hostReset rest s) := by
  simp only [step, hp]

theorem step_of_command {s u : State} {c : CmdWord} {rest : List HostInput} (hp : s.pending = .command c :: rest)
    (hu : issue c s = .next u) : step s = .next (hostAdvance rest u) := by
  simp only [step, hp, hu]

/-- A step on a command word completes only if the command does, and the host then moves on. -/
theorem step_command_next {s t : State} {c : CmdWord} {rest : List HostInput} (hp : s.pending = .command c :: rest)
    (h : step s = .next t) : ∃ u, issue c s = .next u ∧ t = hostAdvance rest u := by
  simp only [step, hp] at h
  cases hu : issue c s with
  | next u => rw [hu] at h; cases h; exact ⟨u, rfl, rfl⟩
  | fault f => rw [hu] at h; cases h
  | refused r => rw [hu] at h; cases h

/-- Everything a step that answers a next state can have done: wait, reset the engine, or complete a command. -/
theorem step_next {s t : State} (h : step s = .next t) :
    t = s ∨ (∃ rest, t = hostReset rest s) ∨ ∃ c rest u, issue c s = .next u ∧ t = hostAdvance rest u := by
  cases hp : s.pending with
  | nil => rw [step_of_waiting hp] at h; cases h; exact .inl rfl
  | cons input rest =>
    cases input with
    | engineReset => rw [step_of_engineReset hp] at h; cases h; exact .inr (.inl ⟨rest, rfl⟩)
    | command c => exact .inr (.inr ⟨c, rest, step_command_next hp h⟩)

/-- A legal word runs its command (30_encoding.md R54). -/
theorem issue_of_decode {c : CmdWord} {i : Instr} (hd : decode c = .ok i) (s : State) : issue c s = exec i s := by
  simp only [issue, hd]

/-- A word that completes is a legal one whose command completes, or ends with IllegalCommand (60_exceptions.md R135). -/
theorem issue_next {c : CmdWord} {s u : State} (h : issue c s = .next u) :
    (∃ i, exec i s = .next u) ∨ u = raise .illegal s := by
  cases hd : decode c with
  | ok i => exact .inl ⟨i, issue_of_decode hd s ▸ h⟩
  | error e => simp only [issue, hd] at h; cases h; exact .inr rfl

/-! ## The invariant -/

/-- `RES` is written whole at the end of every command, and consistently (10_state.md R13, 60_exceptions.md R131). -/
theorem resLegal_settledRes (r : Except Err Success) : resLegal (settledRes r) = true := by
  cases r with
  | ok d => rfl
  | error e => cases e <;> rfl

/-- The end of a command keeps the invariant if its bus grew by legal transactions and the cells it leaves hold a legal
voltage. -/
theorem inv_settle {r : Except Err Success} {bus : Bus} {s : State} (hi : Inv s) (grows : BusGrows s.aSel s.bus bus)
    (volt : ∀ d, r = .ok d → voltLegal d.t.volt = true) : Inv (settle r bus s) where
  volt := by
    cases r with
    | ok d => exact volt d rfl
    | error e => exact hi.volt
  res := resLegal_settledRes r
  dev := grows.dev hi.dev
  log := by
    obtain ⟨d, -, hlog, legal⟩ := grows.log
    intro e he
    rw [settle_buslog, hlog, bus_log] at he
    rcases List.mem_append.1 he with h | h
    · exact hi.log e h
    · exact legal e h

theorem inv_exec {i : Instr} {s t : State} (hi : Inv s) (h : exec i s = .next t) : Inv t := by
  obtain ⟨r, bus, rfl, grows, -, volt⟩ := exec_next h
  exact inv_settle hi grows fun d hd => volt d hd hi.volt

theorem inv_raise (e : Err) {s : State} (hi : Inv s) : Inv (raise e s) :=
  inv_settle hi (.refl _ _) fun _ hd => nomatch hd

theorem inv_issue {c : CmdWord} {s u : State} (hi : Inv s) (h : issue c s = .next u) : Inv u := by
  rcases issue_next h with ⟨i, hx⟩ | rfl
  · exact inv_exec hi hx
  · exact inv_raise _ hi

theorem inv_reset : Inv State.reset where
  volt := rfl
  res := rfl
  dev := memWf_reset
  log := fun _ he => nomatch he

/-- The host's moves touch nothing the invariant speaks of. -/
theorem inv_hostAdvance (rest : List HostInput) {s : State} (hi : Inv s) : Inv (hostAdvance rest s) :=
  ⟨hi.volt, hi.res, hi.dev, hi.log⟩

/-- An engine reset gives the latches their reset values and leaves the device alone (10_state.md R28). -/
theorem inv_hostReset (rest : List HostInput) {s : State} (hi : Inv s) : Inv (hostReset rest s) :=
  ⟨inv_reset.volt, inv_reset.res, hi.dev, fun _ he => nomatch he⟩

/-- Settles O11, from what a step can do: each of its three outcomes keeps the invariant. -/
theorem stepKeepsInv : Obligations.StepKeepsInv := by
  intro s t hi h
  rcases step_next h with rfl | ⟨rest, rfl⟩ | ⟨c, rest, u, hu, rfl⟩
  · exact hi
  · exact inv_hostReset rest hi
  · exact inv_hostAdvance rest (inv_issue hi hu)

/-- Settles O10, by the canonical form of the empty register space and the empty history. -/
theorem resetMeetsInv : Obligations.ResetMeetsInv := inv_reset

/-! ## What no command reads: `RES`, `BUSLOG`, the host's queue and position -/

/-- A state with the parts no command reads replaced: `RES` (10_state.md R13), `BUSLOG` (R15), the host's queue and position
(R14). -/
def State.withUnread (s : State) (res : Res) (log : List BusEntry) (q : List HostInput) (n : Nat) : State :=
  { s with res := res, buslog := log, pending := q, pos := n }

/-- `run` does the same whatever the unread parts of `s` are: either it always completes, with the same result, the same world
and the same entries (at most two) added to `BUSLOG`, or it always hangs. -/
def IgnoresUnread (run : State → Out) (s : State) : Prop :=
  (∃ r w d, d.length ≤ 2 ∧ ∀ res log q n,
    run (s.withUnread res log q n) = .next (settle r ⟨w, log ++ d⟩ (s.withUnread res log q n))) ∨
  ∀ res log q n, run (s.withUnread res log q n) = .fault .transportSilent

/-- An operation without a transaction ignores the unread parts if its result does. -/
theorem ignoresUnread_of_quiet {run : State → Out} {s : State} (r : Except Err Success)
    (h : ∀ res log q n, run (s.withUnread res log q n) = .next (settle r ⟨s.world, log⟩ (s.withUnread res log q n))) :
    IgnoresUnread run s :=
  .inl ⟨r, s.world, [], Nat.zero_le 2, fun res log q n => by rw [h, List.append_nil]⟩

/-- `RD` completes exactly when its transaction is answered. -/
theorem readKind_answered {k : Kind} {s : State} (hs : silentAt 0 s = false) : readKind k s = .next (readDone k s) := by
  simp only [readKind, hs, Bool.false_eq_true, if_false]

theorem readKind_silent {k : Kind} {s : State} (hs : silentAt 0 s = true) : readKind k s = .fault .transportSilent := by
  simp only [readKind, hs, if_true]

/-- `WR` always has an image to send (40_codec.md R84); it completes exactly when its transaction is answered. -/
theorem writeKind_answered {k : Kind} {W : Word} {s : State} (hW : encodeKind k (kindGet k s.t) = .ok W)
    (hs : silentAt 0 s = false) : writeKind k s = .next (writeDone k W s) := by
  simp only [writeKind, hW, hs, Bool.false_eq_true, if_false]

theorem writeKind_silent {k : Kind} {W : Word} {s : State} (hW : encodeKind k (kindGet k s.t) = .ok W)
    (hs : silentAt 0 s = true) : writeKind k s = .fault .transportSilent := by
  simp only [writeKind, hW, hs, if_true]

/-- Whether `MODF` hangs: its read is never answered, or it reaches its write and that is never answered (20_memory.md R45). -/
def modifyHangs (k : Kind) (f : Field) (imm : Word) (s : State) : Bool :=
  silentAt 0 s || (silentAt 1 s && reachesWrite s.aSel k (kindSet k f imm) s.bus)

theorem modifyField_answered {k : Kind} {f : Field} {imm : Word} {s : State} (hs : modifyHangs k f imm s = false) :
    modifyField k f imm s = .next (modifyDone k f imm s) := by
  obtain ⟨h0, h1⟩ := Bool.or_eq_false_iff.1 hs
  simp only [modifyField, h0, h1, Bool.false_eq_true, if_false]

theorem modifyField_silent {k : Kind} {f : Field} {imm : Word} {s : State} (hs : modifyHangs k f imm s = true) :
    modifyField k f imm s = .fault .transportSilent := by
  rcases Bool.or_eq_true_iff.1 hs with h | h <;> simp only [modifyField, h, if_true, ite_self]

theorem ignoresUnread_readKind (k : Kind) (s : State) : IgnoresUnread (readKind k) s := by
  cases hs : silentAt 0 s with
  | true => exact .inr fun _ _ _ _ => readKind_silent hs
  | false =>
    exact .inl ⟨readResult k s.t (memRead s.aSel (address k) s.bus).1, (memRead s.aSel (address k) s.bus).2.world,
      [.read (Config.devAddr s.aSel) (address k) (memRead s.aSel (address k) s.bus).1], Nat.le_succ 1,
      fun _ _ _ _ => readKind_answered hs⟩

theorem ignoresUnread_writeKind (k : Kind) (s : State) : IgnoresUnread (writeKind k) s := by
  obtain ⟨W, hW⟩ := encodeKind_ok k (kindGet k s.t)
  cases hs : silentAt 0 s with
  | true => exact .inr fun _ _ _ _ => writeKind_silent hW hs
  | false =>
    exact .inl ⟨writeResult W s.t (memWrite s.aSel (address k) W s.bus).1, (memWrite s.aSel (address k) W s.bus).2.world,
      [.write (Config.devAddr s.aSel) (address k) (hiByte W) (loByte W) (memWrite s.aSel (address k) W s.bus).1],
      Nat.le_succ 1, fun _ _ _ _ => writeKind_answered hW hs⟩

/-- `modify_k(f)` does not read the history it adds to. -/
theorem modifyRegister_log (sel : BitVec 2) (k : Kind) (f : KindVal k → KindVal k) (w : World) (log : List BusEntry) :
    modifyRegister sel k f ⟨w, log⟩ = ((modifyRegister sel k f ⟨w, []⟩).1,
      ⟨(modifyRegister sel k f ⟨w, []⟩).2.world, log ++ (modifyRegister sel k f ⟨w, []⟩).2.log⟩) := by
  cases hr : readAnswer (arrive w) (address k) with
  | failed e => simp only [modifyRegister, memRead, hr, List.nil_append]
  | bytes r0 r1 =>
    obtain ⟨v, hv⟩ := decodeKind_ok k (image r0 r1)
    obtain ⟨W, hW⟩ := encodeKind_ok k (f v)
    cases hw : writeAnswer (arrive (afterRead (arrive w) (address k) (.bytes r0 r1))) <;>
      simp only [modifyRegister, memRead, memWrite, hr, hv, hW, hw, List.append_assoc, List.nil_append]

/-- `modify_k(f)` adds the same entries, at most two, to any history. -/
theorem modifyRegister_ignores_log (sel : BitVec 2) (k : Kind) (f : KindVal k → KindVal k) (w : World) :
    ∃ x w' d, d.length ≤ 2 ∧ ∀ log, modifyRegister sel k f ⟨w, log⟩ = (x, ⟨w', log ++ d⟩) := by
  obtain ⟨grows, -⟩ := modifyRegister_result sel k f ⟨w, []⟩
  obtain ⟨d, hd, hlog, -⟩ := grows.log
  exact ⟨_, _, _, (congrArg List.length hlog).trans_le hd, modifyRegister_log sel k f w⟩

/-- `MODF` is the end of its `modify_k` run. -/
theorem modifyDone_of_run {k : Kind} {f : Field} {imm : Word} {s : State} {x : Except Err (KindVal k × Word)} {bus : Bus}
    (h : modifyRegister s.aSel k (kindSet k f imm) s.bus = (x, bus)) :
    modifyDone k f imm s = settle (x.map fun p => ⟨kindPut k p.1 s.t, bytesOf p.2, p.2⟩) bus s := by
  simp only [modifyDone, h]

theorem ignoresUnread_modifyField (k : Kind) (f : Field) (imm : Word) (s : State) :
    IgnoresUnread (modifyField k f imm) s := by
  cases hs : modifyHangs k f imm s with
  | true => exact .inr fun _ _ _ _ => modifyField_silent hs
  | false =>
    obtain ⟨x, w, d, hd, run⟩ := modifyRegister_ignores_log s.aSel k (kindSet k f imm) s.world
    exact .inl ⟨x.map fun p => ⟨kindPut k p.1 s.t, bytesOf p.2, p.2⟩, w, d, hd, fun res log q n =>
      (modifyField_answered (s := s.withUnread res log q n) hs).trans
        (congrArg Host.Outcome.next (modifyDone_of_run (run log)))⟩

/-- Every command ignores `RES`, the history and the host's side. -/
theorem ignoresUnread_exec (i : Instr) (s : State) : IgnoresUnread (exec i) s := by
  rcases instr_cases i with ⟨k, rfl⟩ | ⟨k, rfl⟩ | ⟨k, rfl⟩ | ⟨k, rfl⟩ | ⟨f, imm, rfl⟩ | ⟨f, rfl⟩ | ⟨imm, rfl⟩ | rfl | ⟨k, rfl⟩ |
    ⟨k, rfl⟩ | ⟨k, f, imm, hi⟩
  · exact ignoresUnread_of_quiet (.ok ⟨s.t, s.b, (address k).setWidth 16⟩) fun _ _ _ _ => exec_addrOf _ k
  · exact ignoresUnread_of_quiet ((encodeKind k (kindGet k s.t)).map fun W => ⟨s.t, bytesOf W, W⟩)
      fun _ _ _ _ => exec_encOf _ k
  · exact ignoresUnread_of_quiet ((decodeKind k (bufImage s.b)).map fun v => ⟨kindPut k v s.t, s.b, bufImage s.b⟩)
      fun _ _ _ _ => exec_decOf _ k
  · exact ignoresUnread_of_quiet (.ok ⟨kindPut k (kindDefault k) s.t, s.b, 0x0000⟩)
      fun _ _ _ _ => exec_dfltOf _ k
  · exact ignoresUnread_of_quiet (.ok ⟨cellPut f (clip f imm) s.t, s.b, cellGet f (cellPut f (clip f imm) s.t)⟩)
      fun _ _ _ _ => exec_setfOf _ f imm
  · exact ignoresUnread_of_quiet (.ok ⟨s.t, s.b, cellGet f s.t⟩) fun _ _ _ _ => exec_getfOf _ f
  · exact ignoresUnread_of_quiet (.ok ⟨s.t, bytesOf imm, imm⟩) fun _ _ _ _ => exec_ldb _ imm
  · exact ignoresUnread_of_quiet (.ok ⟨s.t, s.b, bufImage s.b⟩) fun _ _ _ _ => exec_getb _
  · rw [show exec (rdOf k) = readKind k from funext fun s => exec_rdOf s k]
    exact ignoresUnread_readKind k s
  · rw [show exec (wrOf k) = writeKind k from funext fun s => exec_wrOf s k]
    exact ignoresUnread_writeKind k s
  · rw [show exec i = modifyField k f imm from funext fun s => exec_modfOf s hi]
    exact ignoresUnread_modifyField k f imm s

/-- The same for a command that completes, said beside its own next state. -/
theorem exec_next_ignores_unread {i : Instr} {s t : State} (h : exec i s = .next t) :
    ∃ d : List BusEntry, d.length ≤ 2 ∧ t.buslog = s.buslog ++ d ∧ ∀ res log q n,
      exec i (s.withUnread res log q n) = .next (t.withUnread t.res (log ++ d) q n) := by
  rcases ignoresUnread_exec i s with ⟨r, w, d, hd, run⟩ | hangs
  · obtain rfl : settle r ⟨w, s.buslog ++ d⟩ s = t :=
      Host.Outcome.next.inj ((run s.res s.buslog s.pending s.pos).symm.trans h)
    exact ⟨d, hd, rfl, run⟩
  · exact nomatch (hangs s.res s.buslog s.pending s.pos).symm.trans h

/-- Settles O14: the entries a command adds are the same over every history. -/
theorem buslogIsOnlyAddedTo : Obligations.BuslogIsOnlyAddedTo := by
  intro i s t h
  obtain ⟨d, hd, hlog, run⟩ := exec_next_ignores_unread h
  obtain ⟨r, bus, rfl, -⟩ := exec_next h
  exact ⟨d, hd, hlog, fun l => run s.res l s.pending s.pos⟩

/-- Settles O13: whatever `RES` held, the command hangs or ends in the same way, and writes `RES` whole. -/
theorem noCommandReadsRes : Obligations.NoCommandReadsRes := by
  intro i s res
  rcases ignoresUnread_exec i s with ⟨r, w, d, -, run⟩ | hangs
  · exact (run res s.buslog s.pending s.pos).trans (run s.res s.buslog s.pending s.pos).symm
  · exact (hangs res s.buslog s.pending s.pos).trans (hangs s.res s.buslog s.pending s.pos).symm

/-- A command leaves the host's side, the strap and the oracle alone (10_state.md R14, R16). -/
theorem exec_next_frame {i : Instr} {s t : State} (h : exec i s = .next t) :
    t.pending = s.pending ∧ t.pos = s.pos ∧ t.aSel = s.aSel ∧ t.world.oracle = s.world.oracle := by
  obtain ⟨r, bus, rfl, grows, -⟩ := exec_next h
  exact ⟨rfl, rfl, rfl, grows.oracle⟩

/-- A word that completes, legal or not, leaves the host's position to the host. -/
theorem issue_next_pos {c : CmdWord} {s u : State} (h : issue c s = .next u) : u.pos = s.pos := by
  rcases issue_next h with ⟨i, hx⟩ | rfl
  · exact (exec_next_frame hx).2.1
  · rfl

/-- Settles O12: the frame of a command, and that it ignores the unread parts; then the host's move after it. -/
theorem commandsLeaveTheHostSideAlone : Obligations.CommandsLeaveTheHostSideAlone := by
  refine ⟨fun i s t h => ⟨exec_next_frame h, fun q n => ?_⟩, fun s t c rest hp h => ?_⟩
  · obtain ⟨d, -, hlog, run⟩ := exec_next_ignores_unread h
    have hq := run s.res s.buslog q n
    rw [← hlog] at hq
    exact hq
  · obtain ⟨u, hu, rfl⟩ := step_command_next hp h
    exact ⟨rfl, congrArg (· + 1) (issue_next_pos hu)⟩

/-! ## The latches are no cache -/

@[simp] theorem kindGet_kindPut (k : Kind) (v : KindVal k) (t : TFile) : kindGet k (kindPut k v t) = v := by
  cases k <;> rfl

/-- Two ends of a command that deliver the same: the same error, or the same cells of `k`, bytes and data. -/
def SameDelivery (k : Kind) : Except Err Success → Except Err Success → Prop
  | .ok d, .ok d' => kindGet k d.t = kindGet k d'.t ∧ d.b = d'.b ∧ d.data = d'.data
  | .error e, .error e' => e = e'
  | _, _ => False

/-- What comes from `x` alone and goes into the cells of `k` is delivered whatever `T` was. -/
theorem sameDelivery_map {A : Type} (k : Kind) (x : Except Err A) (v : A → KindVal k) (b : A → ByteBuf) (W : A → Word)
    (t t' : TFile) :
    SameDelivery k (x.map fun a => ⟨kindPut k (v a) t, b a, W a⟩) (x.map fun a => ⟨kindPut k (v a) t', b a, W a⟩) := by
  cases x with
  | error e => exact rfl
  | ok a => exact ⟨by rw [kindGet_kindPut, kindGet_kindPut], rfl, rfl⟩

/-- What `RD` makes of an answer does not depend on `T` (42_access_protocol.md R100). -/
theorem sameDelivery_readResult (k : Kind) (a : ReadAnswer) (t t' : TFile) :
    SameDelivery k (readResult k t a) (readResult k t' a) := by
  cases a with
  | failed e => exact rfl
  | bytes r0 r1 => exact sameDelivery_map k _ id (fun _ => ⟨r0, r1⟩) (fun _ => image r0 r1) t t'

/-- Ends that deliver the same over the same bus agree in all but the cells of other kinds and, after an error, the latches. -/
theorem settle_sameDelivery {k : Kind} {r r' : Except Err Success} (h : SameDelivery k r r') (bus : Bus) (s s' : State) :
    (settle r bus s).res = (settle r' bus s').res ∧ (settle r bus s).buslog = (settle r' bus s').buslog ∧
    (settle r bus s).world = (settle r' bus s').world ∧ ((settle r' bus s').res.status = .ok →
      kindGet k (settle r bus s).t = kindGet k (settle r' bus s').t ∧ (settle r bus s).b = (settle r' bus s').b) := by
  rcases r with e | d <;> rcases r' with e' | d'
  · exact ⟨congrArg errRes h, rfl, rfl, fun hok => by cases e' <;> exact nomatch hok⟩
  · exact h.elim
  · exact h.elim
  · obtain ⟨ht, hb, hd⟩ := h
    exact ⟨congrArg okRes hd, rfl, rfl, fun _ => ⟨ht, hb⟩⟩

/-- Settles O48: the transactions do not see the latches, and what they answer decides what is delivered. -/
theorem latchesAreNotACache : Obligations.LatchesAreNotACache := by
  intro k i s u t b hi h
  rcases hi with rfl | ⟨f, imm, hi⟩
  · rw [exec_rdOf] at h ⊢
    cases hs : silentAt 0 s with
    | true => rw [readKind_silent hs] at h; cases h
    | false =>
      rw [readKind_answered hs] at h; cases h
      exact ⟨_, readKind_answered hs, settle_sameDelivery (sameDelivery_readResult k _ t s.t) _ _ _⟩
  · rw [exec_modfOf _ hi] at h ⊢
    cases hs : modifyHangs k f imm s with
    | true => rw [modifyField_silent hs] at h; cases h
    | false =>
      rw [modifyField_answered hs] at h; cases h
      exact ⟨_, modifyField_answered hs, settle_sameDelivery
        (sameDelivery_map k _ Prod.fst (fun p => bytesOf p.2) Prod.snd t s.t) _ _ _⟩

/-! ## Steps and reset -/

/-- Settles O6: issuing a legal word is running its command. -/
theorem stepRunsTheDecodedCommand : Obligations.StepRunsTheDecodedCommand := by
  intro s c rest i hp hd
  simp only [step, hp, issue_of_decode hd]
  cases exec i s <;> rfl

/-- Settles O8: the pulse is `hostReset`, whose latches are those of `State.reset`. -/
theorem stepWithoutACommand : Obligations.StepWithoutACommand :=
  ⟨fun _ _ hp => step_of_engineReset hp, fun _ hp => step_of_waiting hp⟩

/-- Settles O9: `DEFAULT_EN` is 0, so every enable flag is clear. -/
theorem resetValues : Obligations.ResetValues :=
  ⟨rfl, rfl, rfl, rfl⟩

/-! ## The tables -/

/-- The kind at an address: the table of R18 read backwards (10_state.md R18). -/
def kindAt? (p : Byte) : Option Kind :=
  [.cfg, .sv1, .bv1, .sv2, .bv2, .sv3, .bv3, .mid, .did].find? fun k => address k = p

@[simp] theorem kindAt?_address (k : Kind) : kindAt? (address k) = some k := by
  cases k <;> rfl

/-- No two kinds share an address (10_state.md R18). -/
theorem address_injective : Function.Injective address := fun k k' h =>
  Option.some.inj <| by rw [← kindAt?_address k, h, kindAt?_address]

/-- The strap's four values give four device addresses (10_state.md R16). -/
theorem devAddr_injective : Function.Injective Config.devAddr := fun a b h => by
  have hw : a.setWidth 7 = b.setWidth 7 := Config.addressStrap.injective h
  have hback : ∀ x : BitVec 2, (x.setWidth 7).setWidth 2 = x := by decide
  rw [← hback a, hw, hback]

/-- Settles O21: the table of selectors is computed; the two maps are injective. -/
theorem addressTables : Obligations.AddressTables :=
  ⟨rfl, fun _ _ h => address_injective h, fun _ _ h => devAddr_injective h⟩

/-- `encode_CFG` packs the cells as their ordinals (40_codec.md R68, R84). -/
theorem encodeCfg_eq (c : Cfg) : encodeCfg c =
    .ok (insertField .mode (modeOrdinal c.mode) (insertField .sct (convTimeOrdinal c.sct)
      (insertField .bct (convTimeOrdinal c.bct) (insertField .avg (averagesOrdinal c.avg)
        (insertField .en3 (packFlag c.en3) (insertField .en2 (packFlag c.en2) (insertField .en1 (packFlag c.en1)
          (insertField .rst (packFlag c.rst) 0x0000)))))))) := by
  simp only [encodeCfg, enumEnc_mode, enumEnc_convTime, enumEnc_averages]

/-- Settles O30: the packing of the default cells, computed for the eight values of `DEFAULT_EN`. -/
theorem defaultImage : Obligations.DefaultImage := by
  intro en
  rw [encodeCfg_eq, Except.ok.injEq]
  revert en
  decide

theorem enumDec_modeOrdinal (m : Mode) : enumDec modeTable (modeOrdinal m) = some m := by cases m <;> rfl

theorem enumDec_convTimeOrdinal (c : ConversionTime) : enumDec convTimeTable (convTimeOrdinal c) = some c := by
  cases c <;> rfl

theorem enumDec_averagesOrdinal (a : Averages) : enumDec averagesTable (averagesOrdinal a) = some a := by
  cases a <;> rfl

/-- Every ordinal below 8 has its variant in each of the three enumerations (10_state.md R22 to R24). -/
theorem ordinal_of_variant {n : Word} (h : n.toNat < 8) :
    modeOrdinal (modeOf n) = n ∧ convTimeOrdinal (convTimeOf n) = n ∧ averagesOrdinal (averagesOf n) = n := by
  rcases eq_of_lt_eight h with rfl | rfl | rfl | rfl | rfl | rfl | rfl | rfl <;> exact ⟨rfl, rfl, rfl⟩

/-- Settles O33, table by table. -/
theorem enumerationTablesAreTotal : Obligations.EnumerationTablesAreTotal :=
  ⟨fun m => ⟨enumEnc_mode m, enumDec_modeOrdinal m⟩, fun c => ⟨enumEnc_convTime c, enumDec_convTimeOrdinal c⟩,
    fun a => ⟨enumEnc_averages a, enumDec_averagesOrdinal a⟩, fun _ h => ordinal_of_variant h⟩

end Sys2Proof.Machine

/-! SUPPORT. Proofs of the family `20_memory.md`: byte order, what a transaction leaves in the device, when the engine hangs, and
what the ideal device reads back. -/

namespace Sys2Proof.Machine

/-! ## Byte order (20_memory.md R33) -/

@[simp] theorem hiByte_image (b0 b1 : Byte) : hiByte (image b0 b1) = b0 := BitVec.extractLsb'_append_eq_left
@[simp] theorem loByte_image (b0 b1 : Byte) : loByte (image b0 b1) = b1 := BitVec.extractLsb'_append_eq_right

@[simp] theorem image_hiByte_loByte (W : Word) : image (hiByte W) (loByte W) = W := by
  rw [image, hiByte, loByte, BitVec.extractLsb'_append_extractLsb'_eq_extractLsb' (show 8 = 0 + 8 from rfl),
    BitVec.extractLsb'_eq_self]

/-- The first byte on the wire holds the image's bits 15 to 8. -/
theorem getLsbD_hiByte (W : Word) {i : Nat} (hi : i < 8) : (hiByte W).getLsbD i = W.getLsbD (8 + i) := by
  simp only [hiByte, BitVec.getLsbD_extractLsb', hi, decide_true, Bool.true_and]

/-- `RD` always decodes bytes that were answered (42_access_protocol.md R100, 40_codec.md R84). -/
theorem readResult_bytes (k : Kind) (t : TFile) (r0 r1 : Byte) :
    ∃ v, decodeKind k (image r0 r1) = .ok v ∧ readResult k t (.bytes r0 r1) = .ok ⟨kindPut k v t, ⟨r0, r1⟩, image r0 r1⟩ := by
  obtain ⟨v, hv⟩ := decodeKind_ok k (image r0 r1)
  exact ⟨v, hv, by simp only [readResult, hv, Except.map]⟩

/-- Settles O53: concatenation and the two slices are inverse, and each primitive logs its bytes as they stand. -/
theorem bigEndianOnTheWire : Obligations.BigEndianOnTheWire := by
  refine ⟨fun _ => ⟨rfl, rfl⟩, fun b0 b1 => ⟨hiByte_image b0 b1, loByte_image b0 b1⟩,
    fun W => ⟨image_hiByte_loByte W, (getLsbD_hiByte W (i := 7) (by decide)).symm⟩, fun sel p W bus => memWrite_log sel p bus W,
    fun sel p bus r0 r1 hr => ?_, fun k t r0 r1 => ?_⟩
  · rw [memRead_log, hr]
  · obtain ⟨v, -, h⟩ := readResult_bytes k t r0 r1
    exact ⟨_, h, hiByte_image r0 r1, loByte_image r0 r1, rfl⟩

/-! ## What a write leaves in the register it addresses -/

theorem hiAddr_ne_loAddr (p : Byte) : hiAddr p ≠ loAddr p := by
  simp only [hiAddr, loAddr]
  omega

@[simp] theorem memRead?_devWrite_hi (m : Memory) (p : Byte) (W : Word) :
    memRead? (devWrite m p W) (hiAddr p) = some (hiByte W) := by
  rw [memRead?_devWrite, if_neg (hiAddr_ne_loAddr p), if_pos rfl]

@[simp] theorem memRead?_devWrite_lo (m : Memory) (p : Byte) (W : Word) :
    memRead? (devWrite m p W) (loAddr p) = some (loByte W) := by
  rw [memRead?_devWrite, if_pos rfl]

/-- What a write of `W` leaves in the register of the ideal device: `W`, or a draw if it failed (20_memory.md R36, R44). -/
def landed (W : Word) (draws : Nat) : WriteAnswer → Word
  | .success => W
  | .failed _ _ => Config.devWord draws

/-- On the ideal device every write, answered in whatever way, writes the register it addresses. -/
theorem memWrite_ideal_dev (sel : BitVec 2) (p : Byte) (W : Word) {bus : Bus} (hi : bus.world.oracle = .ideal) :
    (memWrite sel p W bus).2.world.dev =
      devWrite (arrive bus.world).dev p (landed W bus.world.draws (memWrite sel p W bus).1) := by
  show devAfterWrite (arrive bus.world) p W (memWrite sel p W bus).1 = _
  cases (memWrite sel p W bus).1 <;> simp only [devAfterWrite, landed, arrive_oracle, arrive_draws, hi]

/-- Settles O52: without the pointer there is no data phase, and a write that fails lands as a draw. -/
theorem aFailedWriteLeavesADraw : Obligations.AFailedWriteLeavesADraw := by
  refine ⟨fun _ => ⟨rfl, rfl⟩, fun sel p W bus bus' ph e hi hw => ?_⟩
  have hdev := memWrite_ideal_dev sel p W hi
  rw [hw] at hdev
  rw [hdev]
  exact ⟨memRead?_devWrite_hi _ _ _, memRead?_devWrite_lo _ _ _⟩

/-! ## When the engine hangs (20_memory.md R45) -/

/-- A row that issues no transaction always completes; the others are the rows of `RD`, `WR` and `MODF` (20_memory.md R30). -/
theorem quiet_or_access (i : Instr) :
    (Spec.usesBus i = false ∧ ∀ s, ∃ t, exec i s = .next t) ∨
    (Spec.usesBus i = true ∧ ((∃ k, i = rdOf k) ∨ (∃ k, i = wrOf k) ∨ ∃ k f imm, modfOf k f imm = some i)) := by
  rcases instr_cases i with ⟨k, rfl⟩ | ⟨k, rfl⟩ | ⟨k, rfl⟩ | ⟨k, rfl⟩ | ⟨f, imm, rfl⟩ | ⟨f, rfl⟩ | ⟨imm, rfl⟩ | rfl | ⟨k, rfl⟩ |
    ⟨k, rfl⟩ | ⟨k, f, imm, hi⟩
  · exact .inl ⟨by cases k <;> rfl, fun s => ⟨_, exec_addrOf s k⟩⟩
  · exact .inl ⟨by cases k <;> rfl, fun s => ⟨_, exec_encOf s k⟩⟩
  · exact .inl ⟨by cases k <;> rfl, fun s => ⟨_, exec_decOf s k⟩⟩
  · exact .inl ⟨by cases k <;> rfl, fun s => ⟨_, exec_dfltOf s k⟩⟩
  · exact .inl ⟨by cases f <;> rfl, fun s => ⟨_, exec_setfOf s f imm⟩⟩
  · exact .inl ⟨by cases f <;> rfl, fun s => ⟨_, exec_getfOf s f⟩⟩
  · exact .inl ⟨rfl, fun s => ⟨_, exec_ldb s imm⟩⟩
  · exact .inl ⟨rfl, fun s => ⟨_, exec_getb s⟩⟩
  · exact .inr ⟨by cases k <;> rfl, .inl ⟨k, rfl⟩⟩
  · exact .inr ⟨by cases k <;> rfl, .inr (.inl ⟨k, rfl⟩)⟩
  · refine .inr ⟨?_, .inr (.inr ⟨k, f, imm, hi⟩)⟩
    cases k <;> cases f <;> cases hi <;> rfl

/-- `modify_k(f)` reaches its write exactly when its read is answered with bytes: the codec does not fail (40_codec.md R84). -/
theorem reachesWrite_iff (sel : BitVec 2) (k : Kind) (f : KindVal k → KindVal k) (bus : Bus) :
    reachesWrite sel k f bus = true ↔ ∃ r0 r1, (memRead sel (address k) bus).1 = .bytes r0 r1 := by
  unfold reachesWrite
  cases (memRead sel (address k) bus).1 with
  | failed e => simp
  | bytes r0 r1 =>
    obtain ⟨v, hv⟩ := decodeKind_ok k (image r0 r1)
    obtain ⟨W, hW⟩ := encodeKind_ok k (f v)
    simp [hv, hW]

theorem modifyHangs_iff (k : Kind) (f : Field) (imm : Word) (s : State) :
    modifyHangs k f imm s = true ↔ silentAt 0 s = true ∨
      (silentAt 1 s = true ∧ ∃ r0 r1, (memRead s.aSel (address k) s.bus).1 = .bytes r0 r1) := by
  rw [modifyHangs, Bool.or_eq_true, Bool.and_eq_true, reachesWrite_iff]

/-- `i` is a `MODF` whose read is answered with bytes and whose write is never answered. -/
def SilentWrite (i : Instr) (s : State) : Prop :=
  ∃ k f imm r0 r1, modfOf k f imm = some i ∧ silentAt 1 s = true ∧ (memRead s.aSel (address k) s.bus).1 = .bytes r0 r1

theorem exec_of_silentFirst {i : Instr} {s : State} (hb : Spec.usesBus i = true) (hs : silentAt 0 s = true) :
    exec i s = .fault .transportSilent := by
  rcases quiet_or_access i with ⟨hq, -⟩ | ⟨-, ⟨k, rfl⟩ | ⟨k, rfl⟩ | ⟨k, f, imm, hi⟩⟩
  · exact nomatch hq.symm.trans hb
  · exact (exec_rdOf s k).trans (readKind_silent hs)
  · obtain ⟨W, hW⟩ := encodeKind_ok k (kindGet k s.t)
    exact (exec_wrOf s k).trans (writeKind_silent hW hs)
  · exact (exec_modfOf s hi).trans (modifyField_silent ((modifyHangs_iff k f imm s).2 (.inl hs)))

theorem exec_of_silentWrite {i : Instr} {s : State} (h : SilentWrite i s) : exec i s = .fault .transportSilent := by
  obtain ⟨k, f, imm, r0, r1, hi, hs, hr⟩ := h
  exact (exec_modfOf s hi).trans (modifyField_silent ((modifyHangs_iff k f imm s).2 (.inr ⟨hs, r0, r1, hr⟩)))

/-- Every command completes, or it uses the bus and one of its transactions is never answered. -/
theorem exec_next_or_silent (i : Instr) (s : State) :
    (∃ t, exec i s = .next t) ∨ (Spec.usesBus i = true ∧ (silentAt 0 s = true ∨ SilentWrite i s)) := by
  rcases quiet_or_access i with ⟨-, hq⟩ | ⟨hb, hi⟩
  · exact .inl (hq s)
  · cases hs : silentAt 0 s with
    | true => exact .inr ⟨hb, .inl rfl⟩
    | false =>
      rcases hi with ⟨k, rfl⟩ | ⟨k, rfl⟩ | ⟨k, f, imm, hi⟩
      · exact .inl ⟨_, (exec_rdOf s k).trans (readKind_answered hs)⟩
      · obtain ⟨W, hW⟩ := encodeKind_ok k (kindGet k s.t)
        exact .inl ⟨_, (exec_wrOf s k).trans (writeKind_answered hW hs)⟩
      · cases hm : modifyHangs k f imm s with
        | false => exact .inl ⟨_, (exec_modfOf s hi).trans (modifyField_answered hm)⟩
        | true =>
          rcases (modifyHangs_iff k f imm s).1 hm with h0 | ⟨h1, r0, r1, hr⟩
          · exact nomatch hs.symm.trans h0
          · exact .inr ⟨hb, .inr ⟨k, f, imm, r0, r1, hi, h1, hr⟩⟩

/-- Settles O46: a command completes or is one of the two silent cases, and in both of these it hangs. -/
theorem silentTransportHangs : Obligations.SilentTransportHangs := by
  refine ⟨fun i s => exec_of_silentFirst, fun k f imm i s r0 r1 hi hs hr => exec_of_silentWrite ⟨k, f, imm, r0, r1, hi, hs, hr⟩,
    fun i s r hf => ?_, fun i s r hr => ?_⟩
  · rcases exec_next_or_silent i s with ⟨t, ht⟩ | h
    · exact nomatch ht.symm.trans hf
    · exact h
  · rcases exec_next_or_silent i s with ⟨t, ht⟩ | ⟨hb, h0 | h1⟩
    · exact nomatch ht.symm.trans hr
    · exact nomatch (exec_of_silentFirst hb h0).symm.trans hr
    · exact nomatch (exec_of_silentWrite h1).symm.trans hr

/-! ## What a completed command leaves in the device -/

theorem readKind_next {k : Kind} {s t : State} (h : readKind k s = .next t) : t = readDone k s := by
  cases hs : silentAt 0 s with
  | true => exact nomatch (readKind_silent hs).symm.trans h
  | false => exact (Host.Outcome.next.inj ((readKind_answered hs).symm.trans h)).symm

theorem writeKind_next {k : Kind} {s t : State} (h : writeKind k s = .next t) :
    ∃ W, encodeKind k (kindGet k s.t) = .ok W ∧ t = writeDone k W s := by
  obtain ⟨W, hW⟩ := encodeKind_ok k (kindGet k s.t)
  cases hs : silentAt 0 s with
  | true => exact nomatch (writeKind_silent hW hs).symm.trans h
  | false => exact ⟨W, hW, (Host.Outcome.next.inj ((writeKind_answered hW hs).symm.trans h)).symm⟩

theorem modifyField_next {k : Kind} {f : Field} {imm : Word} {s t : State} (h : modifyField k f imm s = .next t) :
    t = modifyDone k f imm s := by
  cases hs : modifyHangs k f imm s with
  | true => exact nomatch (modifyField_silent hs).symm.trans h
  | false => exact (Host.Outcome.next.inj ((modifyField_answered hs).symm.trans h)).symm

/-- `modify_k(f)` when its read fails: no write is issued (42_access_protocol.md R102). -/
theorem modifyRegister_of_failed {sel : BitVec 2} {k : Kind} {f : KindVal k → KindVal k} {bus : Bus} {e : TErr}
    (hr : (memRead sel (address k) bus).1 = .failed e) :
    modifyRegister sel k f bus = (.error (.transport e), (memRead sel (address k) bus).2) := by
  rcases modifyRegister_cases sel bus k f with ⟨e', hr', h⟩ | ⟨r0, r1, hr', -⟩
  · cases hr.symm.trans hr'
    exact h
  · exact nomatch hr.symm.trans hr'

/-- What `modify_k(f)` makes of the answer to its write, with `v` the value and `W` the image it sent. -/
def modifyResult {k : Kind} (v : KindVal k) (W : Word) : WriteAnswer → Except Err (KindVal k × Word)
  | .success => .ok (v, W)
  | .failed _ e => .error (.transport e)

/-- `modify_k(f)` when its read is answered with bytes: a write of the modified value's image, which fails or not
(42_access_protocol.md R102, 40_codec.md R84). -/
theorem modifyRegister_of_bytes {sel : BitVec 2} {k : Kind} {f : KindVal k → KindVal k} {bus : Bus} {r0 r1 : Byte}
    (hr : (memRead sel (address k) bus).1 = .bytes r0 r1) :
    ∃ v W, decodeKind k (image r0 r1) = .ok v ∧ encodeKind k (f v) = .ok W ∧
      modifyRegister sel k f bus =
        (modifyResult (f v) W (memWrite sel (address k) W (memRead sel (address k) bus).2).1,
          (memWrite sel (address k) W (memRead sel (address k) bus).2).2) := by
  obtain ⟨v, hv⟩ := decodeKind_ok k (image r0 r1)
  obtain ⟨W, hW⟩ := encodeKind_ok k (f v)
  refine ⟨v, W, hv, hW, ?_⟩
  rcases hr' : memRead sel (address k) bus with ⟨a, bus1⟩
  obtain rfl : a = .bytes r0 r1 := by rw [← hr, hr']
  rcases hw : memWrite sel (address k) W bus1 with ⟨_ | ⟨ph, e⟩, bus2⟩ <;>
    simp only [modifyRegister, modifyResult, hr', hv, hW, hw]

theorem modifyDone_world (k : Kind) (f : Field) (imm : Word) (s : State) :
    (modifyDone k f imm s).world = (modifyRegister s.aSel k (kindSet k f imm) s.bus).2.world := rfl

/-- Settles O49: a read changes nothing, and the one write of a command stays inside its register. -/
theorem deviceFrame : Obligations.DeviceFrame := by
  refine ⟨fun k s t h a => ?_, fun k s t h a hh hl => ?_, fun k f imm i s t hi h => ?_⟩
  · rw [exec_rdOf] at h
    rw [readKind_next h]
    rfl
  · rw [exec_wrOf] at h
    obtain ⟨W, -, rfl⟩ := writeKind_next h
    exact memWrite_frame s.aSel (address k) s.bus W a hh hl
  · rw [exec_modfOf s hi] at h
    rw [modifyField_next h, modifyDone_world]
    rcases hr : memRead s.aSel (address k) s.bus with ⟨⟨r0, r1⟩ | e, bus1⟩
    · obtain ⟨v, W, -, -, hm⟩ := modifyRegister_of_bytes (f := kindSet k f imm) (congrArg Prod.fst hr)
      intro a hh hl
      rw [hm, hr]
      exact memWrite_frame _ _ _ _ _ hh hl
    · intro a
      rw [modifyRegister_of_failed (congrArg Prod.fst hr), memRead_dev, bus_world]

/-- `WR k` once its write has succeeded (42_access_protocol.md R101). -/
theorem writeDone_of_success {k : Kind} {W : Word} {s : State} (hw : (memWrite s.aSel (address k) W s.bus).1 = .success) :
    writeDone k W s = settle (.ok ⟨s.t, bytesOf W, W⟩) (memWrite s.aSel (address k) W s.bus).2 s := by
  simp only [writeDone, hw, writeResult]

theorem writeDone_of_failed {k : Kind} {W : Word} {s : State} {ph : Phase} {e : TErr}
    (hw : (memWrite s.aSel (address k) W s.bus).1 = .failed ph e) :
    writeDone k W s = settle (.error (.transport e)) (memWrite s.aSel (address k) W s.bus).2 s := by
  simp only [writeDone, hw, writeResult]

/-- A `WR` or `MODF` that ends with OK has as its last transaction a write that succeeded, of the image it reports. -/
theorem written_of_ok {k : Kind} {i : Instr} {s t : State} (hi : i = wrOf k ∨ ∃ f imm, modfOf k f imm = some i)
    (h : exec i s = .next t) (ok : t.res.status = .ok) :
    ∃ bus, bus.world.oracle = s.world.oracle ∧ (memWrite s.aSel (address k) t.res.data bus).1 = .success ∧
      t.world = (memWrite s.aSel (address k) t.res.data bus).2.world := by
  rcases hi with rfl | ⟨f, imm, hi⟩
  · rw [exec_wrOf] at h
    obtain ⟨W, -, rfl⟩ := writeKind_next h
    rcases hw : (memWrite s.aSel (address k) W s.bus).1 with _ | ⟨ph, e⟩
    · rw [writeDone_of_success hw]
      exact ⟨s.bus, rfl, hw, rfl⟩
    · rw [writeDone_of_failed hw] at ok
      cases ok
  · rw [exec_modfOf s hi] at h
    obtain rfl := modifyField_next h
    rcases hr : (memRead s.aSel (address k) s.bus).1 with ⟨r0, r1⟩ | e
    · obtain ⟨v, W, -, -, hm⟩ := modifyRegister_of_bytes (f := kindSet k f imm) hr
      rw [modifyDone_of_run hm] at ok ⊢
      rcases hw : (memWrite s.aSel (address k) W (memRead s.aSel (address k) s.bus).2).1 with _ | ⟨ph, e⟩ <;> rw [hw] at ok
      · exact ⟨_, memRead_oracle _ _ _, hw, rfl⟩
      · cases ok
    · rw [modifyDone_of_run (modifyRegister_of_failed hr)] at ok
      cases ok

/-- Settles O50: the last transaction writes the register, over whatever others wrote before it. -/
theorem theLastWriteWins : Obligations.TheLastWriteWins := by
  intro k i s t hi ideal h ok
  obtain ⟨bus, horacle, hw, hworld⟩ := written_of_ok hi h ok
  rw [hworld, memWrite_ideal_dev _ _ _ (horacle.trans ideal), hw]
  exact ⟨memRead?_devWrite_hi _ _ _, memRead?_devWrite_lo _ _ _⟩

/-! ## The field primitives (40_codec.md R61, R62) -/

/-- `extract` as the slice it is (R61). -/
theorem extractBits_eq_slice (W : Word) (s w : Nat) : extractBits W s w = (W.extractLsb' s w).setWidth 16 := by
  apply BitVec.eq_of_getLsbD_eq
  intro i hi
  simp only [getLsbD_extractBits, BitVec.getLsbD_setWidth, BitVec.getLsbD_extractLsb', hi, decide_true, Bool.true_and]

/-- `extract` after `insert` at the same field gives the low bits of what was inserted (R62). -/
theorem extractBits_insertBits_same (W v : Word) {s w : Nat} (h : s + w ≤ 16) :
    extractBits (insertBits W s w v) s w = (v.setWidth w).setWidth 16 := by
  apply BitVec.eq_of_getLsbD_eq
  intro i hi
  simp only [getLsbD_extractBits, BitVec.getLsbD_setWidth, hi, decide_true, Bool.true_and]
  by_cases hw : i < w
  · rw [getLsbD_insertBits _ _ _ _ _ (by omega), if_pos (by omega), Nat.add_sub_cancel_left]
  · simp only [hw, decide_false, Bool.false_and]

/-- `extract` does not see an `insert` at a field beside it (R62). -/
theorem extractBits_insertBits_disjoint (W v : Word) {s w s' w' : Nat} (h : s' + w' ≤ 16) (hd : s' + w' ≤ s ∨ s + w ≤ s') :
    extractBits (insertBits W s w v) s' w' = extractBits W s' w' := by
  apply BitVec.eq_of_getLsbD_eq
  intro i hi
  simp only [getLsbD_extractBits]
  by_cases hw : i < w'
  · rw [getLsbD_insertBits _ _ _ _ _ (by omega), if_neg (by omega)]
  · simp only [hw, decide_false, Bool.false_and]

/-- Into a field that is clear, `insert` of a value that fits is `|||`. -/
theorem insertBits_of_clear {W v : Word} {s w : Nat} (hW : extractBits W s w = 0) (hv : (v.setWidth w).setWidth 16 = v) :
    insertBits W s w v = W ||| v <<< s := by
  apply BitVec.eq_of_getLsbD_eq
  intro i hi
  have clear : ∀ j, j < w → W.getLsbD (s + j) = false := fun j hj => by
    have := congrArg (·.getLsbD j) hW
    simpa only [getLsbD_extractBits, hj, decide_true, Bool.true_and, BitVec.ofNat_eq_ofNat, BitVec.getLsbD_zero] using this
  have fits : ∀ j, w ≤ j → v.getLsbD j = false := fun j hj => by
    rw [← hv]
    simp only [BitVec.getLsbD_setWidth, Nat.not_lt.2 hj, decide_false, Bool.false_and, Bool.and_false]
  rw [getLsbD_insertBits _ _ _ _ _ hi, BitVec.getLsbD_or, BitVec.getLsbD_shiftLeft]
  by_cases h1 : s ≤ i
  · obtain ⟨j, rfl⟩ := Nat.exists_eq_add_of_le h1
    simp only [h1, hi, Nat.not_lt.2 h1, Nat.add_lt_add_iff_left, Nat.add_sub_cancel_left, true_and, decide_true, decide_false,
      Bool.not_false, Bool.true_and]
    by_cases hj : j < w
    · rw [if_pos hj, clear j hj, Bool.false_or]
    · rw [if_neg hj, fits j (Nat.not_lt.1 hj), Bool.or_false]
  · simp [h1, Nat.lt_of_not_le h1]

/-! ## The Configuration image field by field (40_codec.md R68, R69, R74) -/

theorem extractField_insertField_same (f : Field) (W v : Word) :
    extractField f (insertField f v W) = (v.setWidth (fieldSpec f).width).setWidth 16 :=
  extractBits_insertBits_same W v (by cases f <;> decide)

/-- Two fields that share no bit. -/
def apart (f g : Field) : Bool :=
  (fieldSpec f).start + (fieldSpec f).width ≤ (fieldSpec g).start ∨ (fieldSpec g).start + (fieldSpec g).width ≤ (fieldSpec f).start

theorem extractField_insertField_apart {f g : Field} (h : apart f g = true) (W v : Word) :
    extractField f (insertField g v W) = extractField f W :=
  extractBits_insertBits_disjoint W v (by cases f <;> decide) (of_decide_eq_true h)

theorem extractField_zero (f : Field) : extractField f 0x0000 = 0 := by cases f <;> rfl

theorem insertField_of_clear {f : Field} {W v : Word} (hW : extractField f W = 0)
    (hv : (v.setWidth (fieldSpec f).width).setWidth 16 = v) : insertField f v W = W ||| v <<< (fieldSpec f).start :=
  insertBits_of_clear hW hv

theorem packFlag_fits (b : Bool) : ((packFlag b).setWidth 1).setWidth 16 = packFlag b := by cases b <;> rfl
theorem averagesOrdinal_fits (a : Averages) : ((averagesOrdinal a).setWidth 3).setWidth 16 = averagesOrdinal a := by
  cases a <;> rfl
theorem convTimeOrdinal_fits (c : ConversionTime) : ((convTimeOrdinal c).setWidth 3).setWidth 16 = convTimeOrdinal c := by
  cases c <;> rfl
theorem modeOrdinal_fits (m : Mode) : ((modeOrdinal m).setWidth 3).setWidth 16 = modeOrdinal m := by cases m <;> rfl

theorem unpackFlag_packFlag (b : Bool) : unpackFlag (packFlag b) = b := by cases b <;> rfl
theorem bit_eq_packFlag (b : Bool) : Spec.bit b = packFlag b := by cases b <;> rfl

/-- `encode_CFG` gives the image of R68: each field is inserted where the image is still clear. -/
theorem encodeCfg_eq_image (c : Cfg) : encodeCfg c = .ok (Spec.cfgImage c) := by
  rw [encodeCfg_eq, Except.ok.injEq]
  rw [insertField_of_clear (f := .mode) _ (modeOrdinal_fits _), insertField_of_clear (f := .sct) _ (convTimeOrdinal_fits _),
    insertField_of_clear (f := .bct) _ (convTimeOrdinal_fits _), insertField_of_clear (f := .avg) _ (averagesOrdinal_fits _),
    insertField_of_clear (f := .en3) _ (packFlag_fits _), insertField_of_clear (f := .en2) _ (packFlag_fits _),
    insertField_of_clear (f := .en1) _ (packFlag_fits _), insertField_of_clear (f := .rst) _ (packFlag_fits _)]
  · simp only [Spec.cfgImage, bit_eq_packFlag, fieldSpec, BitVec.ofNat_eq_ofNat, BitVec.zero_or,
      BitVec.shiftLeft_zero]
  all_goals simp (disch := decide) only [extractField_insertField_apart, extractField_zero]

/-- `decode_CFG` gives back the cells that `encode_CFG` packed (R74). -/
theorem decodeCfg_image (c : Cfg) : decodeCfg (Spec.cfgImage c) = .ok c := by
  have h := encodeCfg_eq c
  rw [encodeCfg_eq_image, Except.ok.injEq] at h
  rw [h]
  simp (disch := decide) only [decodeCfg, extractField_insertField_same, extractField_insertField_apart, fieldSpec,
    packFlag_fits, averagesOrdinal_fits, convTimeOrdinal_fits, modeOrdinal_fits, unpackFlag_packFlag,
    enumDec_averagesOrdinal, enumDec_convTimeOrdinal, enumDec_modeOrdinal]

/-! ## The codec and the images of the specification (40_codec.md R68 to R74) -/

/-- `encode_VOLT` left-justifies the low 13 bits (R70). -/
theorem encodeVolt_eq (v : Word) : encodeVolt v = v.extractLsb' 0 13 ++ 0#3 := by
  apply BitVec.eq_of_getLsbD_eq
  intro i hi
  rw [encodeVolt, insertField, getLsbD_insertBits _ _ _ _ _ hi, BitVec.getLsbD_append]
  by_cases h : i < 3
  · simp [fieldSpec, h]
  · have h3 : 3 ≤ i := Nat.le_of_not_lt h
    have h13 : i - 3 < 13 := by omega
    simp [fieldSpec, h, h3, hi, h13]

theorem encodeId_eq (v : Word) : encodeId v = v := by
  apply BitVec.eq_of_getLsbD_eq
  intro i hi
  rw [encodeId, insertField, getLsbD_insertBits _ _ _ _ _ hi]
  simp [fieldSpec, hi]

theorem decodeId_eq (W : Word) : decodeId W = W := by
  rw [decodeId, extractField, extractBits_eq_slice]
  simp [fieldSpec]

/-- `decode_VOLT` gives back a legal voltage cell (R74). -/
theorem decodeVolt_encodeVolt {v : Word} (h : voltLegal v = true) : decodeVolt (encodeVolt v) = v := by
  have low : (((v.setWidth 13).setWidth 16).setWidth 13) = v.setWidth 13 := BitVec.setWidth_setWidth_of_le _ (by decide)
  rw [decodeVolt, encodeVolt, extractField_insertField_same, sext13]
  simp only [fieldSpec, low]
  exact (beq_iff_eq.1 h).symm

/-- `encode_k` of the cells in `T` is the image of R68, R70, R72. -/
theorem encodeKind_eq_image (k : Kind) (t : TFile) : encodeKind k (kindGet k t) = .ok (Spec.imageOf k t) := by
  cases k
  case cfg => exact encodeCfg_eq_image t.cfg
  case mid => exact congrArg _ (encodeId_eq t.id)
  case did => exact congrArg _ (encodeId_eq t.id)
  all_goals exact congrArg _ (encodeVolt_eq t.volt)

/-- `decode_k` gives back the cells of that image (R74). -/
theorem decodeKind_image (k : Kind) {t : TFile} (hv : voltLegal t.volt = true) :
    decodeKind k (Spec.imageOf k t) = .ok (kindGet k t) := by
  cases k
  case cfg => exact decodeCfg_image t.cfg
  case mid => exact congrArg _ (decodeId_eq t.id)
  case did => exact congrArg _ (decodeId_eq t.id)
  all_goals exact congrArg _ ((congrArg decodeVolt (encodeVolt_eq t.volt)).symm.trans (decodeVolt_encodeVolt hv))

@[simp] theorem kindPut_kindGet (k : Kind) (t : TFile) : kindPut k (kindGet k t) t = t := by
  cases k <;> rfl

/-! ## The ideal device with nothing told to interfere (20_memory.md R44) -/

/-- With no script a transaction finds the world as it is. -/
theorem arrive_of_quiet {w : World} (hq : w.script = []) : arrive w = w := by
  obtain ⟨oracle, script, draws, dev, ptr⟩ := w
  cases hq
  rfl

theorem silentAt_of_quiet (n : Nat) {s : State} (hq : s.world.script = []) : silentAt n s = false := by
  simp only [silentAt, hq, List.getElem?_nil]

/-- The ideal device takes every write the script does not fail. -/
theorem memWrite_quiet (sel : BitVec 2) (p : Byte) (W : Word) {bus : Bus} (hi : bus.world.oracle = .ideal)
    (hq : bus.world.script = []) : (memWrite sel p W bus).1 = .success := by
  simp only [memWrite, arrive_of_quiet hq, writeAnswer, nextTurn, hq, List.headD_nil, hi]

/-- The ideal device answers the two bytes of the register to every read the script does not fail. -/
theorem memRead_quiet (sel : BitVec 2) (p : Byte) {bus : Bus} (hi : bus.world.oracle = .ideal)
    (hq : bus.world.script = []) :
    (memRead sel p bus).1 = .bytes (devByteAt bus.world.dev (hiAddr p)) (devByteAt bus.world.dev (loAddr p)) := by
  simp only [memRead, arrive_of_quiet hq, readAnswer, nextTurn, hq, List.headD_nil, hi]

@[simp] theorem devByteAt_devWrite_hi (m : Memory) (p : Byte) (W : Word) : devByteAt (devWrite m p W) (hiAddr p) = hiByte W := by
  rw [devByteAt, memRead?_devWrite_hi, Option.getD_some]

@[simp] theorem devByteAt_devWrite_lo (m : Memory) (p : Byte) (W : Word) : devByteAt (devWrite m p W) (loAddr p) = loByte W := by
  rw [devByteAt, memRead?_devWrite_lo, Option.getD_some]

/-- A read of a register right after a write of it is answered with the image written. -/
theorem memRead_after_memWrite (sel : BitVec 2) (p : Byte) (W : Word) {bus : Bus} (hi : bus.world.oracle = .ideal)
    (hq : bus.world.script = []) : (memRead sel p (memWrite sel p W bus).2).1 = .bytes (hiByte W) (loByte W) := by
  rw [memRead_quiet sel p ((memWrite_oracle sel p bus W).trans hi) (by rw [memWrite_script, hq, List.tail_nil]),
    memWrite_ideal_dev sel p W hi,
    memWrite_quiet sel p W hi hq, landed, devByteAt_devWrite_hi, devByteAt_devWrite_lo]

/-- `RD k` once its read has been answered with an image that decodes (42_access_protocol.md R100). -/
theorem readDone_of_image {k : Kind} {W : Word} {v : KindVal k} {s : State}
    (hr : (memRead s.aSel (address k) s.bus).1 = .bytes (hiByte W) (loByte W)) (hv : decodeKind k W = .ok v) :
    readDone k s = settle (.ok ⟨kindPut k v s.t, bytesOf W, W⟩) (memRead s.aSel (address k) s.bus).2 s := by
  simp only [readDone, hr, readResult, image_hiByte_loByte, hv, Except.map, bytesOf]

/-- Settles O51: the image written is the image read, and the cells it decodes to are those it was encoded from. -/
theorem idealDeviceReadsBack : Obligations.IdealDeviceReadsBack := by
  intro k s hi hq hv
  have hw := memWrite_quiet s.aSel (address k) (Spec.imageOf k s.t) (bus := s.bus) hi hq
  have hwr : exec (wrOf k) s = .next (writeDone k (Spec.imageOf k s.t) s) :=
    (exec_wrOf s k).trans (writeKind_answered (encodeKind_eq_image k s.t) (silentAt_of_quiet 0 hq))
  rw [writeDone_of_success hw] at hwr
  refine ⟨_, _, hwr, (exec_rdOf _ k).trans (readKind_answered (silentAt_of_quiet 0 ?_)), ?_⟩
  · rw [settle_world, memWrite_script, bus_world, hq, List.tail_nil]
  · rw [readDone_of_image (memRead_after_memWrite _ _ _ (bus := s.bus) hi hq) (decodeKind_image k hv)]
    exact ⟨rfl, rfl, kindPut_kindGet k s.t⟩

end Sys2Proof.Machine

/-! SUPPORT. Proofs of the family `30_encoding.md`: the decoder and the encoder undo each other, the legal words by rows and by
fields, the assembler. -/

namespace Sys2Proof

open Sys2Proof.Machine

/-! ## The selectors of operations, kinds and fields (30_encoding.md R51 to R53) -/

/-- The `op` field of an operation (R51). -/
def Op.selector : Op → BitVec 4
  | .addr => 0x1
  | .enc => 0x2
  | .dec => 0x3
  | .dflt => 0x4
  | .setf => 0x5
  | .getf => 0x6
  | .ldb => 0x7
  | .getb => 0x8
  | .rd => 0x9
  | .wr => 0xA
  | .modf => 0xB

/-- The `kind` field of a kind (R52). -/
def Kind.selector (k : Kind) : BitVec 4 := (Spec.kindSel k).setWidth 4

/-- The `fld` field of a cell (R53). -/
def Field.selector (f : Field) : BitVec 4 := (Spec.fldSel f).setWidth 4

theorem opOf?_selector (o : Op) : opOf? o.selector = some o := by cases o <;> rfl
theorem kindOf?_selector (k : Kind) : kindOf? k.selector = some k := by cases k <;> rfl
theorem fldOf?_selector (f : Field) : fldOf? f.selector = some f := by cases f <;> rfl

theorem eq_opSelector {x : BitVec 4} {o : Op} (h : opOf? x = some o) : x = o.selector := opOf?_inj h (opOf?_selector o)
theorem eq_kindSelector {x : BitVec 4} {k : Kind} (h : kindOf? x = some k) : x = k.selector := kindOf?_inj h (kindOf?_selector k)
theorem eq_fldSelector {x : BitVec 4} {f : Field} (h : fldOf? x = some f) : x = f.selector := fldOf?_inj h (fldOf?_selector f)

theorem kindOf?_isSome (x : BitVec 4) : (kindOf? x).isSome = true ↔ x.toNat ≤ 8 := by revert x; decide
theorem fldOf?_isSome (x : BitVec 4) : (fldOf? x).isSome = true ↔ x.toNat ≤ 9 := by revert x; decide

/-! ## The fields of the rows of each operation (30_encoding.md R50) -/

theorem cmdFields_addrOf (k : Kind) : cmdFields (addrOf k) = ⟨Op.addr.selector, k.selector, 0, 0⟩ := by cases k <;> rfl
theorem cmdFields_encOf (k : Kind) : cmdFields (encOf k) = ⟨Op.enc.selector, k.selector, 0, 0⟩ := by cases k <;> rfl
theorem cmdFields_decOf (k : Kind) : cmdFields (decOf k) = ⟨Op.dec.selector, k.selector, 0, 0⟩ := by cases k <;> rfl
theorem cmdFields_dfltOf (k : Kind) : cmdFields (dfltOf k) = ⟨Op.dflt.selector, k.selector, 0, 0⟩ := by cases k <;> rfl
theorem cmdFields_rdOf (k : Kind) : cmdFields (rdOf k) = ⟨Op.rd.selector, k.selector, 0, 0⟩ := by cases k <;> rfl
theorem cmdFields_wrOf (k : Kind) : cmdFields (wrOf k) = ⟨Op.wr.selector, k.selector, 0, 0⟩ := by cases k <;> rfl
theorem cmdFields_setfOf (f : Field) (imm : Word) : cmdFields (setfOf f imm) = ⟨Op.setf.selector, 0, f.selector, imm⟩ := by
  cases f <;> rfl
theorem cmdFields_getfOf (f : Field) : cmdFields (getfOf f) = ⟨Op.getf.selector, 0, f.selector, 0⟩ := by cases f <;> rfl
theorem cmdFields_modfOf {k : Kind} {f : Field} {imm : Word} {i : Instr} (h : modfOf k f imm = some i) :
    cmdFields i = ⟨Op.modf.selector, k.selector, f.selector, imm⟩ := by
  cases k <;> cases f <;> simp only [modfOf, Option.some.injEq, reduceCtorEq] at h <;> subst h <;> rfl

/-! ## What the decoder can answer (30_encoding.md R56) -/

theorem unusedSet_eq_false (o : Op) (c : CmdWord) :
    unusedSet o c = false ↔ (o.takesKind = false → kindField c = 0) ∧ (o.takesFld = false → fldField c = 0) ∧
      (o.takesImm = false → immField c = 0) := by
  cases o <;> simp [unusedSet, Op.takesKind, Op.takesFld, Op.takesImm, and_assoc]

/-- Checks (4) to (6) pass exactly when the operands taken select a row, which is then the answer. -/
theorem decodeOperands_eq_ok (o : Op) (k f : BitVec 4) (imm : Word) (i : Instr) :
    decodeOperands o k f imm = .ok i ↔
      match o with
      | .addr => ∃ kind, kindOf? k = some kind ∧ addrOf kind = i
      | .enc => ∃ kind, kindOf? k = some kind ∧ encOf kind = i
      | .dec => ∃ kind, kindOf? k = some kind ∧ decOf kind = i
      | .dflt => ∃ kind, kindOf? k = some kind ∧ dfltOf kind = i
      | .setf => ∃ fld, fldOf? f = some fld ∧ setfOf fld imm = i
      | .getf => ∃ fld, fldOf? f = some fld ∧ getfOf fld = i
      | .ldb => .ldb imm = i
      | .getb => .getb = i
      | .rd => ∃ kind, kindOf? k = some kind ∧ rdOf kind = i
      | .wr => ∃ kind, kindOf? k = some kind ∧ wrOf kind = i
      | .modf => ∃ kind fld, kindOf? k = some kind ∧ fldOf? f = some fld ∧ modfOf kind fld imm = some i := by
  cases o
  case addr | enc | dec | dflt | rd | wr => cases hk : kindOf? k <;> simp [decodeOperands, hk]
  case setf | getf => cases hf : fldOf? f <;> simp [decodeOperands, hf]
  case ldb | getb => simp [decodeOperands]
  case modf =>
    cases hk : kindOf? k with
    | none => simp [decodeOperands, hk]
    | some kind =>
      cases hf : fldOf? f with
      | none => simp [decodeOperands, hk, hf]
      | some fld => cases hm : modfOf kind fld imm <;> simp [decodeOperands, hk, hf, hm]

/-- The operands the decoder read are the fields of its answer. -/
theorem cmdFields_of_decodeOperands {o : Op} {k f : BitVec 4} {imm : Word} {i : Instr} (h : decodeOperands o k f imm = .ok i)
    (hk : o.takesKind = false → k = 0) (hf : o.takesFld = false → f = 0) (hm : o.takesImm = false → imm = 0) :
    cmdFields i = ⟨o.selector, k, f, imm⟩ := by
  rw [decodeOperands_eq_ok] at h
  cases o
  case addr | enc | dec | dflt | rd | wr =>
    obtain ⟨kind, hkind, rfl⟩ := h
    rw [eq_kindSelector hkind, hf rfl, hm rfl]
    simp only [cmdFields_addrOf, cmdFields_encOf, cmdFields_decOf, cmdFields_dfltOf, cmdFields_rdOf, cmdFields_wrOf]
  case setf =>
    obtain ⟨fld, hfld, rfl⟩ := h
    rw [eq_fldSelector hfld, hk rfl, cmdFields_setfOf]
  case getf =>
    obtain ⟨fld, hfld, rfl⟩ := h
    rw [eq_fldSelector hfld, hk rfl, hm rfl, cmdFields_getfOf]
  case ldb =>
    subst h
    rw [hk rfl, hf rfl]
    rfl
  case getb =>
    subst h
    rw [hk rfl, hf rfl, hm rfl]
    rfl
  case modf =>
    obtain ⟨kind, fld, hkind, hfld, hi⟩ := h
    rw [eq_kindSelector hkind, eq_fldSelector hfld, cmdFields_modfOf hi]

/-! ## Decoder and encoder undo each other -/

/-- The decoder sees only the packed fields, and row by row they select the instruction they came from. -/
theorem decode_encode (i : Instr) : decode (encode i) = .ok i := by
  rw [encode, decode_packFields]
  cases i <;> rfl

/-- The fields of a legal word are those of its instruction, and a word with `zero` clear is made of its fields. -/
theorem encode_of_decode {c : CmdWord} {i : Instr} (h : decode c = .ok i) : encode i = c := by
  obtain ⟨o, ho, hzero, hunused, hrow⟩ := (decode_eq_ok c i).1 h
  obtain ⟨hk, hf, hm⟩ := (unusedSet_eq_false o c).1 hunused
  rw [encode, cmdFields_of_decodeOperands hrow hk hf hm, ← eq_opSelector ho, packFields_fields c hzero]

/-- Settles O1, by the decoder on packed fields. -/
theorem decodeOfEncode : Obligations.DecodeOfEncode := decode_encode

/-- Settles O2, by the injectivity of the three selectors: the row selected has the fields of the word. -/
theorem encodeOfDecode : Obligations.EncodeOfDecode := fun _ _ => encode_of_decode

/-! ## Legal words by the rows of the opcode map (30_encoding.md section 7) -/

/-- The rows of the opcode map are the rows of the instructions: each pattern decodes to an instruction of its row. -/
theorem exists_tableRow {r : OpcodeRow} (hr : r ∈ opcodeRows) : ∃ i, Laws.tableRow i = r := by
  have h : ∀ r ∈ opcodeRows, (decode r.pattern).map Laws.tableRow = .ok r := by decide
  have hd := h r hr
  cases hi : decode r.pattern with
  | error e => rw [hi] at hd; cases hd
  | ok i => rw [hi] at hd; exact ⟨i, Except.ok.inj hd⟩

theorem tableRow_mem (i : Instr) : Laws.tableRow i ∈ opcodeRows := by
  cases i <;> simp only [Laws.tableRow] <;> decide

/-- A row without an immediate is one word; a row with one is the words that differ from the instruction's in the immediate
only, and all of them are legal. -/
theorem tableRow_cases (i : Instr) :
    Laws.tableRow i = ⟨encode i, 0xFFFFFFFF⟩ ∨
    Laws.tableRow i = ⟨packFields { cmdFields i with imm := 0 }, 0xFFFF0000⟩ ∧
      ∀ w, ∃ j, decode (packFields { cmdFields i with imm := w }) = .ok j ∧ Laws.tableRow j = Laws.tableRow i := by
  cases i
  case setfRst | setfEn1 | setfEn2 | setfEn3 | setfAvg | setfBct | setfSct | setfMode | setfVolt | setfId | ldb | modfCfgRst
      | modfCfgEn1 | modfCfgEn2 | modfCfgEn3 | modfCfgAvg | modfCfgBct | modfCfgSct | modfCfgMode | modfSv1Volt | modfBv1Volt
      | modfSv2Volt | modfBv2Volt | modfSv3Volt | modfBv3Volt | modfMidId | modfDidId =>
    refine .inr ⟨?_, fun w => ⟨_, (decode_packFields _).trans rfl, rfl⟩⟩
    simp only [Laws.tableRow, cmdFields]
    decide
  all_goals exact .inl rfl

/-- A word whose upper half is that of a packed word is packed itself, with its own immediate. -/
theorem packFields_of_masked {c : CmdWord} {p : CmdFields} (h : c &&& 0xFFFF0000 = packFields { p with imm := 0 }) :
    packFields { p with imm := immField c } = c := by
  obtain ⟨ho, hk, hf, hz, -⟩ := fields_packFields { p with imm := 0 }
  have upper (n : Nat) (hm : (0xFFFF0000 : CmdWord).extractLsb' n 4 = BitVec.allOnes 4) :
      (c &&& 0xFFFF0000).extractLsb' n 4 = c.extractLsb' n 4 := by
    rw [BitVec.extractLsb'_and, hm, BitVec.and_allOnes]
  rw [← h] at ho hk hf hz
  have hop : opField c = p.op := (upper 28 (by decide)).symm.trans ho
  have hkind : kindField c = p.kind := (upper 24 (by decide)).symm.trans hk
  have hfld : fldField c = p.fld := (upper 20 (by decide)).symm.trans hf
  have hzero : zeroField c = 0 := (upper 16 (by decide)).symm.trans hz
  rw [← hop, ← hkind, ← hfld, packFields_fields c hzero]

theorem tableRow_selects_encode (i : Instr) : (Laws.tableRow i).selects (encode i) = true := by
  rcases tableRow_cases i with h | ⟨h, -⟩ <;> rw [h, OpcodeRow.selects, beq_iff_eq]
  · exact BitVec.and_allOnes
  · exact Laws.packFields_masked _

theorem decode_of_tableRow_selects {i : Instr} {c : CmdWord} (hs : (Laws.tableRow i).selects c = true) :
    ∃ j, decode c = .ok j ∧ Laws.tableRow j = Laws.tableRow i := by
  rw [OpcodeRow.selects, beq_iff_eq] at hs
  rcases tableRow_cases i with h | ⟨h, legal⟩
  · rw [h] at hs
    have hc : c = encode i := BitVec.and_allOnes.symm.trans hs
    exact ⟨i, hc ▸ decode_encode i, rfl⟩
  · rw [h] at hs
    have hd := legal (immField c)
    rwa [packFields_of_masked hs] at hd

/-- A row of the opcode map selects the words that decode to an instruction of that row. -/
theorem selects_iff {r : OpcodeRow} (hr : r ∈ opcodeRows) (c : CmdWord) :
    r.selects c = true ↔ ∃ i, decode c = .ok i ∧ Laws.tableRow i = r := by
  obtain ⟨i, rfl⟩ := exists_tableRow hr
  constructor
  · exact decode_of_tableRow_selects
  · rintro ⟨j, hd, hj⟩
    rw [← hj, ← encode_of_decode hd]
    exact tableRow_selects_encode j

/-- Settles O3: the row that selects a word is the row of the instruction the word decodes to. -/
theorem legalWordsAreTheTableRows : Obligations.LegalWordsAreTheTableRows := by
  intro c
  refine ⟨⟨?_, ?_⟩, ?_⟩
  · rintro ⟨i, hd⟩
    exact ⟨Laws.tableRow i, tableRow_mem i, (selects_iff (tableRow_mem i) c).2 ⟨i, hd, rfl⟩⟩
  · rintro ⟨r, hr, hs⟩
    obtain ⟨i, hd, -⟩ := (selects_iff hr c).1 hs
    exact ⟨i, hd⟩
  · intro r hr r' hr' hs hs'
    obtain ⟨i, hd, rfl⟩ := (selects_iff hr c).1 hs
    obtain ⟨j, hd', rfl⟩ := (selects_iff hr' c).1 hs'
    rw [Except.ok.inj (hd.symm.trans hd')]

/-! ## Legal words by their fields (30_encoding.md R54) -/

/-- `MODF` has a row for a kind and a field exactly when the field belongs to the kind (R53). -/
theorem modfOf_isSome (k : Kind) (f : Field) (imm : Word) : (modfOf k f imm).isSome = k.hasField f := by
  cases k <;> cases f <;> rfl

/-- Which fields belong to a kind, by the selectors (R53). -/
theorem hasField_iff {x y : BitVec 4} {k : Kind} {f : Field} (hk : kindOf? x = some k) (hf : fldOf? y = some f) :
    k.hasField f = true ↔ (x.toNat = 0 ∧ y.toNat ≤ 7) ∨ (1 ≤ x.toNat ∧ x.toNat ≤ 6 ∧ y.toNat = 8) ∨
      (7 ≤ x.toNat ∧ y.toNat = 9) := by
  rw [eq_kindSelector hk, eq_fldSelector hf]
  cases k <;> cases f <;> decide

/-- Checks (4) to (6), field by field (R54). -/
theorem decodeOperands_legal (o : Op) (k f : BitVec 4) (imm : Word) :
    (∃ i, decodeOperands o k f imm = .ok i) ↔
      (o.takesKind = true → k.toNat ≤ 8) ∧ (o.takesFld = true → f.toNat ≤ 9) ∧
      (o = .modf → (k.toNat = 0 ∧ f.toNat ≤ 7) ∨ (1 ≤ k.toNat ∧ k.toNat ≤ 6 ∧ f.toNat = 8) ∨
        (7 ≤ k.toNat ∧ f.toNat = 9)) := by
  simp only [decodeOperands_eq_ok, ← kindOf?_isSome, ← fldOf?_isSome]
  cases o
  case addr | enc | dec | dflt | rd | wr | setf | getf => simp [Op.takesKind, Op.takesFld, Option.isSome_iff_exists]
  case ldb | getb => simp [Op.takesKind, Op.takesFld]
  case modf =>
    cases hk : kindOf? k with
    | none => simp [Op.takesKind]
    | some kind =>
      cases hf : fldOf? f with
      | none => simp [Op.takesFld]
      | some fld => simp [← hasField_iff hk hf, ← modfOf_isSome kind fld imm, Option.isSome_iff_exists]

/-- Settles O4: the decoder's checks one by one. -/
theorem legalWordsByFields : Obligations.LegalWordsByFields := by
  intro c
  simp only [decode_eq_ok, unusedSet_eq_false]
  rw [exists_comm]
  simp only [exists_and_left, decodeOperands_legal, and_assoc]

/-! ## The assembler (30_encoding.md R57) -/

/-- Settles O54: `SETF` and `LDB` check their immediate, `MODF` has a row where the field belongs to the kind, and every other
line names a row. -/
theorem wellFormedLinesAssemble : Obligations.WellFormedLinesAssemble := by
  intro a
  cases a with
  | setf f imm => cases h : imm.fits f <;> simp [assemble, Asm.wellFormed, h]
  | ldb imm => cases h : imm.isImage <;> simp [assemble, Asm.wellFormed, h]
  | modf k f imm => cases h : imm.fits f <;> simp [assemble, Asm.wellFormed, h, modfOf_isSome]
  | _ => rfl

/-- The 13 bits of a signed immediate denote the integer written (R55). -/
theorem toInt_clip_volt {x : Int} (hlo : -4096 ≤ x) (hhi : x ≤ 4095) : (clip .volt (BitVec.ofInt 16 x)).toInt = x := by
  rw [clip, sext13, BitVec.toInt_signExtend_of_le (by decide), BitVec.toInt_setWidth, BitVec.toNat_ofInt, Int.bmod_def]
  omega

/-- Settles O55, by the clipping of `volt`. -/
theorem signedImmediatesReachTheCell : Obligations.SignedImmediatesReachTheCell := by
  intro x s hlo hhi
  have fits : (ImmText.signed x).fits .volt = true := by simp [ImmText.fits, hlo, hhi]
  exact ⟨setfOf .volt (BitVec.ofInt 16 x), _, if_pos fits, rfl, toInt_clip_volt hlo hhi⟩

/-! ## Sample words -/

/-- Settles O5: each word is the word of its instruction; `op` 0x0 and 0xF select no operation. -/
theorem sampleWordsDecode : Obligations.SampleWordsDecode :=
  ⟨decode_encode .addrMid, decode_encode .encCfg, decode_encode .decSv2, decode_encode .dfltCfg,
    decode_encode (.setfVolt 0xFF9C), decode_encode .getfMode, decode_encode (.ldb 0x5449), decode_encode .getb,
    decode_encode .rdDid, decode_encode .wrCfg, decode_encode (.modfCfgMode 6), decode_encode (.modfMidId 0x1234), rfl, rfl⟩

end Sys2Proof

/-! SUPPORT. Proofs of the family `40_codec.md`: the field primitives, closed enumerations, the three layout classes and their
round trips, `ADDR`, `ENC`, `DEC`, `DFLT`. -/

namespace Sys2Proof.Machine

/-! ## The field primitives (40_codec.md R61, R62) -/

/-- `extract` reads nothing but the field's bits (R61). -/
theorem extractBits_congr {W W' : Word} {s w : Nat} (h : ∀ j, s ≤ j → j < s + w → W.getLsbD j = W'.getLsbD j) :
    extractBits W s w = extractBits W' s w := by
  apply BitVec.eq_of_getLsbD_eq
  intro i _
  simp only [getLsbD_extractBits]
  by_cases hw : i < w
  · rw [h (s + i) (by omega) (by omega)]
  · simp only [hw, decide_false, Bool.false_and]

/-- `insert` keeps every bit outside the field (R62). -/
theorem getLsbD_insertBits_outside (W v : Word) {s w j : Nat} (hj : j < s ∨ s + w ≤ j) :
    (insertBits W s w v).getLsbD j = W.getLsbD j := by
  by_cases h16 : j < 16
  · rw [getLsbD_insertBits _ _ _ _ _ h16, if_neg (by omega)]
  · rw [BitVec.getLsbD_of_ge _ _ (by omega), BitVec.getLsbD_of_ge _ _ (by omega)]

/-- A field copied from `W` into `U`, bit by bit. -/
theorem getLsbD_insertBits_extractBits (W U : Word) (s w : Nat) {i : Nat} (hi : i < 16) :
    (insertBits U s w (extractBits W s w)).getLsbD i = if s ≤ i ∧ i < s + w then W.getLsbD i else U.getLsbD i := by
  rw [getLsbD_insertBits _ _ _ _ _ hi]
  split
  case isTrue h =>
    have hw : i - s < w := by omega
    rw [getLsbD_extractBits, Nat.add_sub_cancel' h.1]
    simp only [hw, decide_true, Bool.true_and]
  case isFalse => rfl

/-- Inserting what was extracted changes nothing (R62). -/
theorem insertBits_extractBits (W : Word) (s w : Nat) : insertBits W s w (extractBits W s w) = W := by
  apply BitVec.eq_of_getLsbD_eq
  intro i hi
  rw [getLsbD_insertBits_extractBits W W s w hi, ite_self]

/-- Settles O31, law by law, each of them bit by bit. -/
theorem fieldPrimitiveLaws : Obligations.FieldPrimitiveLaws := fun W _ v s w _ h16 =>
  ⟨extractBits_eq_slice W s w, extractBits_congr, fun _ => getLsbD_insertBits_outside W v,
    extractBits_insertBits_same W v h16, fun _ _ => extractBits_insertBits_disjoint W v, insertBits_extractBits W s w⟩

/-! ## Closed enumerations (40_codec.md R66, R133) -/

/-- A code that stands in no row is refused. -/
theorem enumDec_eq_none {V : Type} {table : List (V × Word)} {c : Word} (h : ∀ row ∈ table, row.2 ≠ c) :
    enumDec table c = none := by
  rw [enumDec, Option.map_eq_none_iff, List.find?_eq_none]
  exact fun row hrow hc => h row hrow (of_decide_eq_true hc)

/-- What a code decodes to is a row of the table. -/
theorem mem_of_enumDec {V : Type} {table : List (V × Word)} {c : Word} {v : V} (h : enumDec table c = some v) :
    (v, c) ∈ table := by
  obtain ⟨row, hfind, rfl⟩ := Option.map_eq_some_iff.1 h
  have hcode := List.find?_some hfind
  obtain rfl : row.2 = c := of_decide_eq_true hcode
  exact List.mem_of_find?_eq_some hfind

/-- Where no code stands twice, the row found for a code is the only one that has it. -/
theorem enumDec_of_mem {V : Type} {table : List (V × Word)} {c : Word} {v : V}
    (distinct : table.Pairwise fun a b => a.2 ≠ b.2) (h : (v, c) ∈ table) : enumDec table c = some v := by
  cases hd : enumDec table c with
  | none =>
    rw [enumDec, Option.map_eq_none_iff, List.find?_eq_none] at hd
    exact absurd (decide_eq_true rfl) (hd (v, c) h)
  | some v' =>
    have same := List.inj_on_of_nodup_map (List.pairwise_map.2 distinct) (mem_of_enumDec hd) h rfl
    rw [(Prod.mk.inj same).1]

/-- Settles O32: the search of a table finds a row with the code, and the only one if the codes are distinct. -/
theorem closedEnumerations : Obligations.ClosedEnumerations := fun _ _ _ =>
  ⟨enumDec_eq_none, fun distinct _ => ⟨mem_of_enumDec, enumDec_of_mem distinct⟩⟩

/-! ## The Configuration image (40_codec.md R68, R69, R75) -/

/-- A one-bit field is its bit, packed as a flag (R63). -/
theorem extractBits_one (W : Word) (s : Nat) : extractBits W s 1 = packFlag (W.getLsbD s) := by
  have bits : ∀ (b : Bool) (i : Nat), (packFlag b).getLsbD i = (decide (i < 1) && b) := by
    intro b i
    cases b <;> simp [packFlag]
  apply BitVec.eq_of_getLsbD_eq
  intro i _
  rw [getLsbD_extractBits, bits]
  by_cases hi : i < 1
  · rw [Nat.lt_one_iff.1 hi, Nat.add_zero]
  · simp only [hi, decide_false, Bool.false_and]

/-- The cells of R69, by the field primitives. -/
theorem cfgOf_eq (W : Word) : Spec.cfgOf W =
    { rst := unpackFlag (extractField .rst W)
      en1 := unpackFlag (extractField .en1 W)
      en2 := unpackFlag (extractField .en2 W)
      en3 := unpackFlag (extractField .en3 W)
      avg := averagesOf (extractField .avg W)
      bct := convTimeOf (extractField .bct W)
      sct := convTimeOf (extractField .sct W)
      mode := modeOf (extractField .mode W) } := by
  simp only [Spec.cfgOf, extractField, fieldSpec, ← extractBits_eq_slice, extractBits_one, unpackFlag_packFlag]

/-- `decode_CFG` is the formula of R69: no code is without a variant. -/
theorem decodeCfg_eq (W : Word) : decodeCfg W = .ok (Spec.cfgOf W) := by
  simp only [cfgOf_eq, decodeCfg, extractField, fieldSpec, enumDec_averages (extractBits_three W _),
    enumDec_convTime (extractBits_three W _), enumDec_mode (extractBits_three W _)]

/-- `U` has the bits of `W` from bit `n` up. -/
def AgreesFrom (W U : Word) (n : Nat) : Prop := ∀ i, n ≤ i → i < 16 → U.getLsbD i = W.getLsbD i

/-- Copying the field just below extends the agreement down to its start. -/
theorem agreesFrom_insertField (f : Field) {W U : Word}
    (h : AgreesFrom W U ((fieldSpec f).start + (fieldSpec f).width)) :
    AgreesFrom W (insertField f (extractField f W) U) (fieldSpec f).start := by
  intro i hlo hi
  rw [insertField, extractField, getLsbD_insertBits_extractBits W U _ _ hi]
  split
  · rfl
  · exact h i (by omega) hi

/-- The eight Configuration fields, from `rst` down to `mode`, cover the 16 bits of an image (10_state.md R19). -/
theorem copy_cfgFields (W : Word) :
    insertField .mode (extractField .mode W) (insertField .sct (extractField .sct W)
      (insertField .bct (extractField .bct W) (insertField .avg (extractField .avg W)
        (insertField .en3 (extractField .en3 W) (insertField .en2 (extractField .en2 W)
          (insertField .en1 (extractField .en1 W) (insertField .rst (extractField .rst W) 0x0000))))))) = W := by
  have top : AgreesFrom W 0x0000 16 := fun i hlo hi => absurd hlo (Nat.not_le.2 hi)
  have agrees : AgreesFrom W _ 0 :=
    agreesFrom_insertField .mode <| agreesFrom_insertField .sct <| agreesFrom_insertField .bct <|
      agreesFrom_insertField .avg <| agreesFrom_insertField .en3 <| agreesFrom_insertField .en2 <|
        agreesFrom_insertField .en1 <| agreesFrom_insertField .rst top
  exact BitVec.eq_of_getLsbD_eq fun i hi => agrees i (Nat.zero_le i) hi

/-- Encoding the cells decoded from an image gives the image back (R75). -/
theorem encodeCfg_cfgOf (W : Word) : encodeCfg (Spec.cfgOf W) = .ok W := by
  have flag : ∀ s, packFlag (unpackFlag (extractBits W s 1)) = extractBits W s 1 := fun s => by
    rw [extractBits_one, unpackFlag_packFlag]
  have code := fun s => ordinal_of_variant (extractBits_three W s)
  have cells := copy_cfgFields W
  simp only [extractField, fieldSpec] at cells
  simp only [encodeCfg_eq, cfgOf_eq, extractField, fieldSpec, flag, code, cells]

/-! ## The voltage images (40_codec.md R65, R70, R71, R75) -/

/-- `sext_16` of a 13-bit pattern keeps its 13 bits. -/
theorem setWidth_signExtend_volt (x : BitVec 13) : (x.signExtend 16).setWidth 13 = x := by
  rw [BitVec.signExtend_eq_append_of_le (by decide)]
  exact BitVec.setWidth_append_eq_right

/-- `decode_VOLT` is the formula of R71. -/
theorem decodeVolt_eq (W : Word) : decodeVolt W = (W.extractLsb' 3 13).signExtend 16 := by
  rw [decodeVolt, extractField, extractBits_eq_slice, sext13]
  exact congrArg _ (BitVec.setWidth_setWidth_of_le _ (by decide))

/-- An image is its bits [15:3] followed by its bits [2:0]. -/
theorem voltImage_split (W : Word) : W.extractLsb' 3 13 ++ W.extractLsb' 0 3 = W := by
  rw [BitVec.extractLsb'_append_extractLsb'_eq_extractLsb' (show 3 = 0 + 3 from rfl), BitVec.extractLsb'_eq_self]

/-- Encoding the voltage decoded from an image clears its bits [2:0] (R75). -/
theorem encodeVolt_decodeVolt (W : Word) : encodeVolt (decodeVolt W) = W &&& 0xFFF8 := by
  have mask : (0xFFF8 : Word) = BitVec.allOnes 13 ++ 0#3 := by decide
  calc encodeVolt (decodeVolt W) = W.extractLsb' 3 13 ++ 0#3 := by
        rw [encodeVolt_eq, decodeVolt_eq, ← BitVec.setWidth_eq_extractLsb' (by decide), setWidth_signExtend_volt]
    _ = (W.extractLsb' 3 13 ++ W.extractLsb' 0 3) &&& 0xFFF8 := by
        rw [mask, BitVec.and_append, BitVec.and_allOnes, BitVec.and_zero]
    _ = W &&& 0xFFF8 := by rw [voltImage_split]

/-- The integer an image denotes, by its two parts. -/
theorem toInt_voltImage (x : BitVec 13) (y : BitVec 3) : (x ++ y).toInt = 8 * x.toInt + y.toNat := BitVec.toInt_append

theorem toInt_decodeVolt (W : Word) : (decodeVolt W).toInt = (W.extractLsb' 3 13).toInt := by
  rw [decodeVolt_eq, BitVec.toInt_signExtend_of_le (by decide)]

/-- A legal voltage cell denotes the integer its low 13 bits denote (10_state.md R11). -/
theorem toInt_of_voltLegal {v : Word} (h : voltLegal v = true) : v.toInt = (v.extractLsb' 0 13).toInt := by
  rw [beq_iff_eq.1 h, sext13, BitVec.toInt_signExtend_of_le (by decide), ← BitVec.setWidth_eq_extractLsb' (by decide),
    setWidth_signExtend_volt]

/-- Settles O36: an image denotes eight times its bits [15:3] plus its bits [2:0], which are at most 7. -/
theorem voltagesAsIntegers : Obligations.VoltagesAsIntegers := by
  constructor
  · intro v hv
    rw [encodeVolt_eq, toInt_voltImage, toInt_of_voltLegal hv]
    exact Int.add_zero _
  · intro W
    have hW : W.toInt = 8 * (W.extractLsb' 3 13).toInt + (W.extractLsb' 0 3).toNat := by
      rw [← toInt_voltImage, voltImage_split]
    have rest := (W.extractLsb' 0 3).isLt
    have lower := (W.extractLsb' 3 13).le_toInt
    have upper := (W.extractLsb' 3 13).toInt_lt
    rw [toInt_decodeVolt]
    omega

/-! ## The round trips of the nine kinds (40_codec.md R74, R75) -/

/-- Settles O34: the image of the cells decodes to the cells. -/
theorem roundTripFromTypedValues : Obligations.RoundTripFromTypedValues := fun k t hv =>
  ⟨Spec.imageOf k t, encodeKind_eq_image k t, decodeKind_image k hv⟩

/-- Every image decodes, and encoding the value gives it back, but for bits [2:0] of a voltage (R75). -/
theorem encodeLayout_decodeLayout (l : Layout) (W : Word) :
    ∃ v, decodeLayout l W = .ok v ∧ encodeLayout l v = .ok (if l = .volt then W &&& 0xFFF8 else W) := by
  cases l with
  | cfg => exact ⟨Spec.cfgOf W, decodeCfg_eq W, encodeCfg_cfgOf W⟩
  | volt => exact ⟨decodeVolt W, rfl, congrArg Except.ok (encodeVolt_decodeVolt W)⟩
  | id => exact ⟨decodeId W, rfl, congrArg Except.ok ((encodeId_eq _).trans (decodeId_eq W))⟩

/-- Settles O35, by the layout class of the kind. -/
theorem roundTripFromImages : Obligations.RoundTripFromImages := fun k W => encodeLayout_decodeLayout (layoutOf k) W

/-! ## The words of `ADDR`, `ENC`, `DEC`, `DFLT` (30_encoding.md R50) -/

/-- The word of a row that takes a kind only: the operation's selector on top, the kind's below it. -/
theorem packFields_kind (o : Op) (k : Kind) :
    packFields ⟨o.selector, k.selector, 0, 0⟩ = (o.selector.setWidth 32 <<< 28) ||| (Spec.kindSel k <<< 24) := by
  cases o <;> cases k <;> rfl

theorem encode_addrOf (k : Kind) : encode (addrOf k) = 0x10000000 ||| (Spec.kindSel k <<< 24) := by
  rw [encode, cmdFields_addrOf, packFields_kind]
  rfl

theorem encode_encOf (k : Kind) : encode (encOf k) = 0x20000000 ||| (Spec.kindSel k <<< 24) := by
  rw [encode, cmdFields_encOf, packFields_kind]
  rfl

theorem encode_decOf (k : Kind) : encode (decOf k) = 0x30000000 ||| (Spec.kindSel k <<< 24) := by
  rw [encode, cmdFields_decOf, packFields_kind]
  rfl

theorem encode_dfltOf (k : Kind) : encode (dfltOf k) = 0x40000000 ||| (Spec.kindSel k <<< 24) := by
  rw [encode, cmdFields_dfltOf, packFields_kind]
  rfl

/-! ## The meanings of `ENC`, `DEC`, `DFLT` by the formulas of the specification -/

theorem imageOf_volt {k : Kind} (h : layoutOf k = .volt) (t : TFile) : Spec.imageOf k t = t.volt.extractLsb' 0 13 ++ 0#3 := by
  simp only [Spec.imageOf, h]

theorem imageOf_id {k : Kind} (h : layoutOf k = .id) (t : TFile) : Spec.imageOf k t = t.id := by
  simp only [Spec.imageOf, h]

theorem loaded_volt {k : Kind} (h : layoutOf k = .volt) (W : Word) (t : TFile) :
    Spec.loaded k W t = { t with volt := (W.extractLsb' 3 13).signExtend 16 } := by
  simp only [Spec.loaded, h]

theorem loaded_id {k : Kind} (h : layoutOf k = .id) (W : Word) (t : TFile) : Spec.loaded k W t = { t with id := W } := by
  simp only [Spec.loaded, h]

/-- `decode_k`, written to the cells of `k`, is the formula of R69, R71 or R73. -/
theorem decodeKind_loaded (k : Kind) (W : Word) (t : TFile) :
    ∃ v, decodeKind k W = .ok v ∧ kindPut k v t = Spec.loaded k W t := by
  cases k
  case cfg => exact ⟨_, decodeCfg_eq W, rfl⟩
  case mid => exact ⟨_, congrArg Except.ok (decodeId_eq W), rfl⟩
  case did => exact ⟨_, congrArg Except.ok (decodeId_eq W), rfl⟩
  all_goals exact ⟨_, congrArg Except.ok (decodeVolt_eq W), rfl⟩

theorem kindPut_kindDefault (k : Kind) (t : TFile) : kindPut k (kindDefault k) t = Spec.defaulted k t := by
  cases k <;> rfl

/-- `ENC k`: the image of the cells of `k` goes to `B` and `RES` (R77 to R79). -/
theorem exec_encOf_image (k : Kind) (s : State) : exec (encOf k) s = .next { s with
    b := ⟨Spec.first (Spec.imageOf k s.t), Spec.second (Spec.imageOf k s.t)⟩, res := ⟨.ok, Spec.imageOf k s.t, none⟩ } := by
  rw [exec_encOf, encKind, encodeKind_eq_image]
  rfl

/-- `DEC k`: the cells of `k` are loaded from the image in `B`, which goes to `RES` (R80 to R82). -/
theorem exec_decOf_loaded (k : Kind) (s : State) : exec (decOf k) s = .next { s with
    t := Spec.loaded k (s.b.b0 ++ s.b.b1) s.t, res := ⟨.ok, s.b.b0 ++ s.b.b1, none⟩ } := by
  obtain ⟨v, hv, hput⟩ := decodeKind_loaded k (bufImage s.b) s.t
  rw [exec_decOf, decKind, hv, ← show bufImage s.b = s.b.b0 ++ s.b.b1 from rfl, ← hput]
  rfl

/-- Settles O22: `ADDR` reports the address and writes nothing else. -/
theorem addrReportsTheAddress : Obligations.AddrReportsTheAddress := fun k s => ⟨encode_addrOf k, exec_addrOf s k⟩

/-- Settles O23: `encode_CFG` gives the image of R68. -/
theorem encCfgPacksTheCells : Obligations.EncCfgPacksTheCells := fun s => ⟨encode_encOf .cfg, exec_encOf_image .cfg s⟩

/-- Settles O24: the image of a voltage kind is the cell left-justified. -/
theorem encVoltLeftJustifies : Obligations.EncVoltLeftJustifies := fun k s h =>
  ⟨encode_encOf k, imageOf_volt h s.t ▸ exec_encOf_image k s⟩

/-- Settles O25: the image of an identifier kind is the cell. -/
theorem encIdCopies : Obligations.EncIdCopies := fun k s h => ⟨encode_encOf k, imageOf_id h s.t ▸ exec_encOf_image k s⟩

/-- Settles O26: `decode_CFG` is the formula of R69 and never fails. -/
theorem decCfgUnpacksTheCells : Obligations.DecCfgUnpacksTheCells := fun s => ⟨encode_decOf .cfg, exec_decOf_loaded .cfg s⟩

/-- Settles O27: a voltage kind loads bits [15:3], sign-extended. -/
theorem decVoltSignExtends : Obligations.DecVoltSignExtends := fun k s h =>
  ⟨encode_decOf k, loaded_volt h _ s.t ▸ exec_decOf_loaded k s⟩

/-- Settles O28: an identifier kind loads the image. -/
theorem decIdCopies : Obligations.DecIdCopies := fun k s h => ⟨encode_decOf k, loaded_id h _ s.t ▸ exec_decOf_loaded k s⟩

/-- Settles O29: `DFLT` writes the defaults of R26. -/
theorem dfltWritesTheDefaults : Obligations.DfltWritesTheDefaults := fun k s =>
  ⟨encode_dfltOf k, by rw [exec_dfltOf, dfltKind, kindPut_kindDefault]; rfl⟩

/-! ## The statuses a command ends with (40_codec.md R84, 60_exceptions.md R131, R135) -/

/-- A command of the table ends with OK or with the transport's error: the codec of this hardware does not fail. -/
theorem exec_next_status {i : Instr} {s t : State} (h : exec i s = .next t) :
    t.res.status = .ok ∨ t.res.status = .transportError := by
  obtain ⟨r, bus, rfl, -, onlyTransport, -⟩ := exec_next h
  cases r with
  | ok d => exact .inl rfl
  | error e =>
    obtain ⟨c, rfl⟩ := onlyTransport e rfl
    exact .inr rfl

/-- Settles O16: neither of the two statuses left is one of the three. -/
theorem codecErrorsNeverHappen : Obligations.CodecErrorsNeverHappen := by
  intro i s t h
  rcases exec_next_status h with hs | hs <;> simp [hs]

end Sys2Proof.Machine

/-! SUPPORT. Proofs of the family `41_operand_commands.md`: the words and the meanings of `SETF`, `GETF`, `LDB`, `GETB`. -/

namespace Sys2Proof.Machine

/-! ## The words of `SETF`, `GETF`, `LDB` (30_encoding.md R50) -/

/-- The immediate fills the low half of a word, which is clear without it. -/
theorem packFields_imm (p : CmdFields) : packFields p = packFields { p with imm := 0 } ||| p.imm.setWidth 32 := by
  have low : p.imm.setWidth 32 = 0#16 ++ p.imm := BitVec.setWidth_eq_append (by decide)
  rw [low, packFields, packFields, BitVec.or_append, BitVec.or_zero]
  exact congrArg _ BitVec.zero_or.symm

/-- The word of a row that takes a field but no immediate: the operation's selector on top, the field's in its place. -/
theorem packFields_fld (o : Op) (f : Field) :
    packFields ⟨o.selector, 0, f.selector, 0⟩ = (o.selector.setWidth 32 <<< 28) ||| (Spec.fldSel f <<< 20) := by
  cases o <;> cases f <;> rfl

theorem encode_setfOf (f : Field) (imm : Word) :
    encode (setfOf f imm) = 0x50000000 ||| (Spec.fldSel f <<< 20) ||| imm.setWidth 32 := by
  rw [encode, cmdFields_setfOf, packFields_imm, packFields_fld]
  rfl

theorem encode_getfOf (f : Field) : encode (getfOf f) = 0x60000000 ||| (Spec.fldSel f <<< 20) := by
  rw [encode, cmdFields_getfOf, packFields_fld]
  rfl

theorem encode_ldb (imm : Word) : encode (.ldb imm) = 0x70000000 ||| imm.setWidth 32 := by
  have upper : packFields ⟨0x7, 0, 0, 0⟩ = 0x70000000 := rfl
  rw [encode, cmdFields, packFields_imm, upper]

/-! ## The cells of `T` by the formulas of the specification (30_encoding.md R55, 41_operand_commands.md R90, R91) -/

/-- A flag cell keeps bit 0 of the immediate. -/
theorem unpackFlag_and_one (imm : Word) : unpackFlag (imm &&& 0x0001) = imm.getLsbD 0 := by
  have field : imm &&& 0x0001 = extractBits imm 0 1 := by rw [extractBits, BitVec.ushiftRight_zero]; rfl
  rw [field, extractBits_one, unpackFlag_packFlag]

/-- An enumeration cell keeps bits [2:0] of the immediate. -/
theorem and_seven_eq_slice (imm : Word) : imm &&& 0x0007 = (imm.extractLsb' 0 3).setWidth 16 := by
  rw [← extractBits_eq_slice, extractBits, BitVec.ushiftRight_zero]
  rfl

/-- A voltage cell keeps bits [12:0] of the immediate, sign-extended. -/
theorem sext13_eq_slice (imm : Word) : sext13 imm = (imm.extractLsb' 0 13).signExtend 16 := by
  rw [sext13, BitVec.setWidth_eq_extractLsb' (by decide)]

/-- Storing the clipped immediate sets the cell of R55. -/
theorem cellPut_clip (f : Field) (imm : Word) (t : TFile) : cellPut f (clip f imm) t = Spec.setCell f imm t := by
  cases f
  case rst | en1 | en2 | en3 => simp only [cellPut, cfgPut, clip, Spec.setCell, unpackFlag_and_one]
  case avg | bct | sct | mode => simp only [cellPut, cfgPut, clip, Spec.setCell, and_seven_eq_slice]
  case volt => simp only [cellPut, clip, Spec.setCell, sext13_eq_slice]
  case id => rfl

/-- The pattern of a cell is the report of R91. -/
theorem cellGet_eq_cellBits (f : Field) (t : TFile) : cellGet f t = Spec.cellBits f t := by
  cases f
  case rst | en1 | en2 | en3 => exact (bit_eq_packFlag _).symm
  all_goals rfl

/-- Settles O37: clipping stores the cell of R55, and `RES` reports it. -/
theorem setfStoresTheClippedField : Obligations.SetfStoresTheClippedField := fun f imm s =>
  ⟨encode_setfOf f imm, by rw [exec_setfOf, setField, cellPut_clip, cellGet_eq_cellBits]; rfl⟩

/-- Settles O38: the pattern of the cell goes to `RES`. -/
theorem getfReportsTheField : Obligations.GetfReportsTheField := fun f s =>
  ⟨encode_getfOf f, by rw [exec_getfOf, getField, cellGet_eq_cellBits]; rfl⟩

/-- Settles O39: the two halves of the immediate go to `B`, the immediate to `RES`. -/
theorem ldbLoadsTheBuffer : Obligations.LdbLoadsTheBuffer := fun imm s => ⟨encode_ldb imm, exec_ldb s imm⟩

/-- Settles O40: the image held in `B` goes to `RES`. -/
theorem getbReportsTheBuffer : Obligations.GetbReportsTheBuffer := fun s => ⟨rfl, exec_getb s⟩

end Sys2Proof.Machine

/-! SUPPORT. Proofs of the family `42_access_protocol.md`: what `RD`, `WR` and `MODF` make of the transport's answers, and the
transactions of every command. -/

namespace Sys2Proof.Machine

/-! ## The entry of one transaction (R106) -/

theorem log_of_memRead {sel : BitVec 2} {p : Byte} {a : ReadAnswer} {bus bus1 : Bus} (hr : memRead sel p bus = (a, bus1)) :
    bus1.log = bus.log ++ [.read (Config.devAddr sel) p a] := by
  cases hr
  rfl

theorem log_of_memWrite {sel : BitVec 2} {p : Byte} {W : Word} {a : WriteAnswer} {bus bus1 : Bus}
    (hw : memWrite sel p W bus = (a, bus1)) :
    bus1.log = bus.log ++ [.write (Config.devAddr sel) p (hiByte W) (loByte W) a] := by
  cases hw
  rfl

/-! ## `RD` and `WR` once their transaction is answered (R100, R101) -/

/-- The end of `RD k`, with its one entry written out. -/
theorem readDone_of_answer {k : Kind} {s : State} {a : ReadAnswer} {bus : Bus}
    (hr : memRead s.aSel (address k) s.bus = (a, bus)) :
    readDone k s = { settle (readResult k s.t a) bus s with
      buslog := s.buslog ++ [.read (Config.devAddr s.aSel) (address k) a] } := by
  rw [← bus_log, ← log_of_memRead hr, readDone, hr]
  rfl

/-- The end of `WR k` with image `W`, with its one entry written out. -/
theorem writeDone_of_answer {k : Kind} {W : Word} {s : State} {a : WriteAnswer} {bus : Bus}
    (hw : memWrite s.aSel (address k) W s.bus = (a, bus)) :
    writeDone k W s = { settle (writeResult W s.t a) bus s with
      buslog := s.buslog ++ [.write (Config.devAddr s.aSel) (address k) (hiByte W) (loByte W) a] } := by
  rw [← bus_log, ← log_of_memWrite hw, writeDone, hw]
  rfl

/-- Bytes that are answered load the cells by the formulas of R69, R71, R73. -/
theorem readResult_loaded (k : Kind) (t : TFile) (r0 r1 : Byte) :
    readResult k t (.bytes r0 r1) = .ok ⟨Spec.loaded k (r0 ++ r1) t, ⟨r0, r1⟩, r0 ++ r1⟩ := by
  obtain ⟨v, hv, hput⟩ := decodeKind_loaded k (image r0 r1) t
  rw [← show image r0 r1 = r0 ++ r1 from rfl, ← hput, readResult, hv]
  rfl

/-- Settles O41: the bytes answered are decoded into the cells, and go to `B` and `RES`. -/
theorem rdDeliversTheRegister : Obligations.RdDeliversTheRegister := by
  intro k s r0 r1 bus hs hr
  rw [exec_rdOf, readKind_answered hs, readDone_of_answer hr, readResult_loaded]
  rfl

/-- Settles O42: an error settles `RES` only. -/
theorem rdReportsTransportError : Obligations.RdReportsTransportError := by
  intro k s e bus hs hr
  rw [exec_rdOf, readKind_answered hs, readDone_of_answer hr]
  rfl

/-- Settles O43: the image of the cells is sent, and the end of the command follows the answer. -/
theorem wrSendsTheCells : Obligations.WrSendsTheCells := by
  intro k s a bus hs hw
  rw [exec_wrOf, writeKind_answered (encodeKind_eq_image k s.t) hs, writeDone_of_answer hw]
  cases a with
  | success => rfl
  | failed ph e => rfl

/-! ## The value `MODF` writes (R103) -/

/-- A `MODF` row stands only for a field of its kind (30_encoding.md R53). -/
theorem hasField_of_modfOf {k : Kind} {f : Field} {imm : Word} {i : Instr} (hi : modfOf k f imm = some i) :
    k.hasField f = true := by
  rw [← modfOf_isSome k f imm, hi, Option.isSome_some]

/-- Replacing field `f` of a typed value is setting that cell of `T` (30_encoding.md R55). -/
theorem kindPut_kindSet {k : Kind} {f : Field} (hf : k.hasField f = true) (imm : Word) (v : KindVal k) (t : TFile) :
    kindPut k (kindSet k f imm v) t = Spec.setCell f imm (kindPut k v t) := by
  rw [← cellPut_clip]
  cases k <;> cases f <;> cases hf <;> rfl

/-- A typed value encodes to the image of the cells it is written to. -/
theorem encodeKind_of_kindPut (k : Kind) (v : KindVal k) (t : TFile) :
    encodeKind k v = .ok (Spec.imageOf k (kindPut k v t)) := by
  rw [← encodeKind_eq_image, kindGet_kindPut]

/-- Written to `T`, what `modify_k` returns is what a `WR` of the modified cells would make of the same answer. -/
theorem modifyResult_map {k : Kind} (v : KindVal k) (W : Word) (t : TFile) (a : WriteAnswer) :
    ((modifyResult v W a).map fun p => (⟨kindPut k p.1 t, bytesOf p.2, p.2⟩ : Success)) =
      writeResult W (kindPut k v t) a := by
  cases a with
  | success => rfl
  | failed ph e => rfl

/-! ## `MODF` once its transactions are answered (R102, R103) -/

/-- `modify_k(f)` when its read is answered with bytes: the value it writes, or the failure of that write. -/
theorem modifyRegister_of_answers {sel : BitVec 2} {k : Kind} {f : KindVal k → KindVal k} {bus bus1 bus2 : Bus} {r0 r1 : Byte}
    {v : KindVal k} {W : Word} {a : WriteAnswer} (hr : memRead sel (address k) bus = (.bytes r0 r1, bus1))
    (hv : decodeKind k (image r0 r1) = .ok v) (hW : encodeKind k (f v) = .ok W)
    (hw : memWrite sel (address k) W bus1 = (a, bus2)) : modifyRegister sel k f bus = (modifyResult (f v) W a, bus2) := by
  cases a <;> simp only [modifyRegister, modifyResult, hr, hv, hW, hw]

/-- A failed read ends `MODF`, with the entry of that read alone. -/
theorem modifyDone_of_readFailed {k : Kind} {f : Field} {imm : Word} {s : State} {e : TErr} {bus : Bus}
    (hr : memRead s.aSel (address k) s.bus = (.failed e, bus)) :
    modifyDone k f imm s = { settle (.error (.transport e)) bus s with
      buslog := s.buslog ++ [.read (Config.devAddr s.aSel) (address k) (.failed e)] } := by
  have run := modifyRegister_of_failed (f := kindSet k f imm) (congrArg Prod.fst hr)
  rw [modifyDone_of_run run, hr, ← bus_log, ← log_of_memRead hr]
  rfl

/-- After a read that is answered, `MODF` ends like a `WR` of the modified cells, with the entries of both transactions. -/
theorem modifyDone_of_answers {k : Kind} {f : Field} {imm : Word} {s : State} {r0 r1 : Byte} {t' : TFile} {W : Word}
    {a : WriteAnswer} {bus1 bus2 : Bus} (hf : k.hasField f = true)
    (hr : memRead s.aSel (address k) s.bus = (.bytes r0 r1, bus1))
    (ht : t' = Spec.setCell f imm (Spec.loaded k (r0 ++ r1) s.t)) (hW : W = Spec.imageOf k t')
    (hw : memWrite s.aSel (address k) W bus1 = (a, bus2)) :
    modifyDone k f imm s = { settle (writeResult W t' a) bus2 s with
      buslog := s.buslog ++ [.read (Config.devAddr s.aSel) (address k) (.bytes r0 r1),
        .write (Config.devAddr s.aSel) (address k) (hiByte W) (loByte W) a] } := by
  obtain ⟨v, hv, hload⟩ := decodeKind_loaded k (image r0 r1) s.t
  have hput : kindPut k (kindSet k f imm v) s.t = t' := by rw [kindPut_kindSet hf, hload, ht, image]
  have henc : encodeKind k (kindSet k f imm v) = .ok W := by rw [encodeKind_of_kindPut k _ s.t, hput, hW]
  rw [modifyDone_of_run (modifyRegister_of_answers hr hv henc hw), modifyResult_map, hput, settle, log_of_memWrite hw,
    log_of_memRead hr, bus_log, List.append_assoc]
  rfl

/-- `MODF` completes if the transport answers both its turns. -/
theorem exec_modfOf_of_answers {k : Kind} {f : Field} {imm : Word} {i : Instr} {s : State}
    (hi : modfOf k f imm = some i) (hs : transportAnswers s) : exec i s = .next (modifyDone k f imm s) := by
  obtain ⟨h0, h1⟩ := hs
  rw [exec_modfOf s hi, modifyField_answered]
  simp only [modifyHangs, h0, h1, Bool.false_and, Bool.or_false]

/-- `MODF` completes if its read is answered with a failure, whatever its second turn is (20_memory.md R45). -/
theorem exec_modfOf_of_readFailed {k : Kind} {f : Field} {imm : Word} {i : Instr} {s : State} {e : TErr} {bus : Bus}
    (hi : modfOf k f imm = some i) (h0 : silentAt 0 s = false)
    (hr : memRead s.aSel (address k) s.bus = (.failed e, bus)) : exec i s = .next (modifyDone k f imm s) := by
  have noWrite : reachesWrite s.aSel k (kindSet k f imm) s.bus = false := by simp only [reachesWrite, hr]
  rw [exec_modfOf s hi, modifyField_answered]
  simp only [modifyHangs, h0, noWrite, Bool.and_false, Bool.or_false]

/-- Settles O44: the write that succeeds carries the modified cells and leaves them in `T`. -/
theorem modfReadsModifiesWrites : Obligations.ModfReadsModifiesWrites := by
  intro k f imm i s r0 r1 t' W bus1 bus2 hi hs hr ht hW hw
  rw [exec_modfOf_of_answers hi hs, modifyDone_of_answers (hasField_of_modfOf hi) hr ht hW hw]
  rfl

/-- Settles O45: the error of either transaction settles `RES` only. -/
theorem modfReportsTransportErrors : Obligations.ModfReportsTransportErrors := by
  constructor
  · intro k f imm i s e bus hi h0 hr
    rw [exec_modfOf_of_readFailed hi h0 hr, modifyDone_of_readFailed hr]
    rfl
  · intro k f imm i s r0 r1 W ph e bus1 bus2 hi hs hr hW hw
    rw [exec_modfOf_of_answers hi hs, modifyDone_of_answers (hasField_of_modfOf hi) hr rfl hW hw]
    rfl

/-! ## The transactions of every command (R106) -/

/-- A command that does not use the bus ends with OK over the bus it found (20_memory.md R30). -/
theorem exec_of_quiet {i : Instr} (hq : Spec.usesBus i = false) (s : State) :
    ∃ d, exec i s = .next (settle (.ok d) s.bus s) := by
  rcases instr_cases i with ⟨k, rfl⟩ | ⟨k, rfl⟩ | ⟨k, rfl⟩ | ⟨k, rfl⟩ | ⟨f, imm, rfl⟩ | ⟨f, rfl⟩ | ⟨imm, rfl⟩ | rfl | ⟨k, rfl⟩ |
    ⟨k, rfl⟩ | ⟨k, f, imm, hi⟩
  · exact ⟨_, exec_addrOf s k⟩
  · exact ⟨⟨_, _, _⟩, exec_encOf_image k s⟩
  · exact ⟨⟨_, _, _⟩, exec_decOf_loaded k s⟩
  · exact ⟨_, exec_dfltOf s k⟩
  · exact ⟨_, exec_setfOf s f imm⟩
  · exact ⟨_, exec_getfOf s f⟩
  · exact ⟨_, exec_ldb s imm⟩
  · exact ⟨_, exec_getb s⟩
  · rw [Spec.usesBus, cmdFields_rdOf] at hq
    cases hq
  · rw [Spec.usesBus, cmdFields_wrOf] at hq
    cases hq
  · rw [Spec.usesBus, cmdFields_modfOf hi] at hq
    cases hq

/-- An illegal word ends with IllegalCommand (60_exceptions.md R135). -/
theorem issue_of_illegal {c : CmdWord} (hc : ∀ i, decode c ≠ .ok i) (s : State) : issue c s = .next (raise .illegal s) := by
  cases hd : decode c with
  | ok i => exact absurd hd (hc i)
  | error e => simp only [issue, hd]

/-- Settles O19, operation by operation. -/
theorem transactionShapes : Obligations.TransactionShapes := by
  refine ⟨fun k s t h => ?_, fun k s t h => ?_, fun k f imm i s t hi h => ?_, fun i s t hq h => ?_, fun c s t hc h => ?_⟩
  · rw [exec_rdOf] at h
    rw [readKind_next h]
    exact ⟨_, rfl⟩
  · rw [exec_wrOf] at h
    obtain ⟨W, -, rfl⟩ := writeKind_next h
    exact ⟨_, _, _, rfl⟩
  · rw [exec_modfOf s hi] at h
    rw [modifyField_next h]
    rcases hr : memRead s.aSel (address k) s.bus with ⟨⟨r0, r1⟩ | e, bus1⟩
    · rw [modifyDone_of_answers (hasField_of_modfOf hi) hr rfl rfl rfl]
      exact .inr ⟨r0, r1, _, _, _, rfl⟩
    · rw [modifyDone_of_readFailed hr]
      exact .inl ⟨e, rfl⟩
  · obtain ⟨d, hd⟩ := exec_of_quiet hq s
    obtain rfl := Host.Outcome.next.inj (hd.symm.trans h)
    rfl
  · obtain rfl := Host.Outcome.next.inj ((issue_of_illegal hc s).symm.trans h)
    rfl

/-! ## Field isolation (R104) -/

/-- A kind has the fields of its layout class: the Configuration fields, `volt` or `id`. -/
theorem layout_of_hasField {k : Kind} {f : Field} (hf : k.hasField f = true) :
    (layoutOf k = .cfg ∧ f ≠ .volt ∧ f ≠ .id) ∨ (layoutOf k = .volt ∧ f = .volt) ∨ (layoutOf k = .id ∧ f = .id) := by
  revert hf
  cases k <;> cases f <;> decide

/-- A later `insert` at the same field replaces an earlier one (40_codec.md R62). -/
theorem insertField_insertField_same (f : Field) (u v W : Word) : insertField f v (insertField f u W) = insertField f v W := by
  apply BitVec.eq_of_getLsbD_eq
  intro i hi
  simp only [insertField, getLsbD_insertBits _ _ _ _ _ hi]
  split <;> rfl

/-- The low `w` bits of a pattern fit a field of width `w`. -/
theorem and_lowMask_fits (v : Word) (w : Nat) : ((v &&& lowMask w).setWidth w).setWidth 16 = v &&& lowMask w := by
  apply BitVec.eq_of_getLsbD_eq
  intro i hi
  simp only [BitVec.getLsbD_setWidth, BitVec.getLsbD_and, getLsbD_lowMask, hi, decide_true, Bool.true_and, Bool.and_true]
  rw [Bool.and_comm, Bool.and_assoc, Bool.and_self]

/-- A clipped flag or enumeration pattern fits its field (30_encoding.md R55). -/
theorem clip_fits {f : Field} (hv : f ≠ .volt) (imm : Word) :
    ((clip f imm).setWidth (fieldSpec f).width).setWidth 16 = clip f imm := by
  cases f
  case volt => exact absurd rfl hv
  case id => exact (BitVec.setWidth_eq _).trans (BitVec.setWidth_eq _)
  case rst | en1 | en2 | en3 => exact and_lowMask_fits imm 1
  case avg | bct | sct | mode => exact and_lowMask_fits imm 3

/-- Decoding after an `insert` at a Configuration field finds that cell replaced, and no other (40_codec.md R69). -/
theorem cfgOf_insertField {f : Field} (hv : f ≠ .volt) (hid : f ≠ .id) (imm W : Word) :
    Spec.cfgOf (insertField f (clip f imm) W) = cfgPut f (clip f imm) (Spec.cfgOf W) := by
  have fits := clip_fits hv imm
  cases f
  case volt => exact absurd rfl hv
  case id => exact absurd rfl hid
  all_goals
    simp only [fieldSpec] at fits
    simp (disch := decide) only [cfgOf_eq, cfgPut, extractField_insertField_same, extractField_insertField_apart, fieldSpec, fits]

theorem cfgOf_cfgImage (c : Cfg) : Spec.cfgOf (Spec.cfgImage c) = c :=
  Except.ok.inj ((decodeCfg_eq _).symm.trans (decodeCfg_image c))

theorem cfgImage_cfgOf (W : Word) : Spec.cfgImage (Spec.cfgOf W) = W :=
  Except.ok.inj ((encodeCfg_eq_image _).symm.trans (encodeCfg_cfgOf W))

/-- Replacing a Configuration cell inserts its pattern into the image: both images decode to the same cells. -/
theorem cfgImage_cfgPut {f : Field} (hv : f ≠ .volt) (hid : f ≠ .id) (imm : Word) (c : Cfg) :
    Spec.cfgImage (cfgPut f (clip f imm) c) = insertField f (clip f imm) (Spec.cfgImage c) := by
  rw [← cfgImage_cfgOf (insertField f _ _), cfgOf_insertField hv hid, cfgOf_cfgImage]

/-- Setting a cell of a kind inserts the clipped immediate into the kind's image. -/
theorem imageOf_setCell {k : Kind} {f : Field} (hf : k.hasField f = true) (imm : Word) (t : TFile) :
    Spec.imageOf k (Spec.setCell f imm t) = insertField f (clip f imm) (Spec.imageOf k t) := by
  rw [← cellPut_clip]
  rcases layout_of_hasField hf with ⟨hk, hv, hid⟩ | ⟨hk, rfl⟩ | ⟨hk, rfl⟩
  · have cell : (cellPut f (clip f imm) t).cfg = cfgPut f (clip f imm) t.cfg := by cases f <;> rfl
    simp only [Spec.imageOf, hk, cell, cfgImage_cfgPut hv hid]
  · rw [imageOf_volt hk, imageOf_volt hk, ← encodeVolt_eq, ← encodeVolt_eq]
    exact (insertField_insertField_same .volt _ _ _).symm
  · rw [imageOf_id hk, imageOf_id hk, ← encodeId_eq t.id, ← encodeId_eq (cellPut .id _ t).id]
    exact (insertField_insertField_same .id _ _ _).symm

/-- `decode_k` then `encode_k` of an image gives the image of the cells loaded from it, for Configuration the same image
(40_codec.md R75). -/
theorem reencode_loaded (k : Kind) (W : Word) (t : TFile) :
    (∃ v, decodeKind k W = .ok v ∧ encodeKind k v = .ok (Spec.imageOf k (Spec.loaded k W t))) ∧
      (k = .cfg → Spec.imageOf k (Spec.loaded k W t) = W) := by
  obtain ⟨v, hv, hput⟩ := decodeKind_loaded k W t
  refine ⟨⟨v, hv, hput ▸ encodeKind_of_kindPut k v t⟩, ?_⟩
  rintro rfl
  exact cfgImage_cfgOf W

theorem position_eq (f : Field) : Spec.position f = ((fieldSpec f).start, (fieldSpec f).width) := by
  cases f <;> rfl

/-- Settles O47: the image of the modified cells is that of the cells read, with the clipped immediate inserted. -/
theorem fieldIsolation : Obligations.FieldIsolation := by
  intro k f imm i s t hi h ok
  have hf := hasField_of_modfOf hi
  rw [exec_modfOf s hi] at h
  obtain rfl := modifyField_next h
  rcases hr : memRead s.aSel (address k) s.bus with ⟨⟨r0, r1⟩ | e, bus1⟩
  · rcases hw : memWrite s.aSel (address k) (Spec.imageOf k (Spec.setCell f imm (Spec.loaded k (r0 ++ r1) s.t))) bus1 with
      ⟨_ | ⟨ph, e⟩, bus2⟩
    · obtain ⟨⟨v, hv, henc⟩, hcfg⟩ := reencode_loaded k (r0 ++ r1) s.t
      have written := (image_hiByte_loByte _).trans (imageOf_setCell hf imm (Spec.loaded k (r0 ++ r1) s.t))
      rw [modifyDone_of_answers hf hr rfl rfl hw, position_eq]
      refine ⟨r0, r1, _, _, rfl, ⟨v, _, hv, henc, hcfg, written⟩, fun hk j _ hj => ?_⟩
      calc (image (hiByte _) (loByte _)).getLsbD j
        _ = (Spec.imageOf k (Spec.loaded k (r0 ++ r1) s.t)).getLsbD j := by
          rw [written]
          exact getLsbD_insertBits_outside _ _ hj
        _ = (r0 ++ r1).getLsbD j := by rw [hcfg hk]
    · rw [modifyDone_of_answers hf hr rfl rfl hw] at ok
      cases ok
  · rw [modifyDone_of_readFailed hr] at ok
    cases ok

end Sys2Proof.Machine

/-! SUPPORT. Proofs of the family `43_facade_pseudo_ops.md`: how an expansion is issued, what each pseudo-operation expands to,
and what the facade gives its caller. -/

namespace Sys2Proof.Machine

/-! ## Issuing an expansion (R121) -/

/-- Issuing the word of a command runs the command (30_encoding.md R54). -/
theorem issue_encode (i : Instr) (s : State) : issue (encode i) s = exec i s := issue_of_decode (decode_encode i) s

/-- After a command that ends with OK the host issues the rest. -/
theorem issueAll_of_ok {i : Instr} {is : List Instr} {s u : State} (hx : exec i s = .next u) (ok : u.res.status = .ok) :
    issueAll ((i :: is).map encode) s = issueAll (is.map encode) u := by
  simp only [List.map_cons, issueAll, issue_encode, hx, ok, if_true]

/-- After a command that ends with another status the host issues nothing more. -/
theorem issueAll_of_error {i : Instr} {is : List Instr} {s u : State} (hx : exec i s = .next u) (bad : u.res.status ≠ .ok) :
    issueAll ((i :: is).map encode) s = .next u := by
  simp only [List.map_cons, issueAll, issue_encode, hx, bad, if_false]

/-- Issuing a single command is running it. -/
theorem issueAll_singleton (i : Instr) (s : State) : issueAll ([i].map encode) s = exec i s := by
  simp only [List.map_cons, List.map_nil, issueAll, issue_encode]
  cases exec i s <;> simp only [ite_self]

/-- A pseudo-operation that completes left the state its expansion left, and its result is read from `RES`. -/
theorem runPseudo_eq_next {p : Pseudo} {s t : State} {v : PseudoResult} :
    runPseudo p s = .next (v, t) ↔ issueAll ((expand p).map encode) s = .next t ∧ v = pseudoResult p t.res := by
  rw [runPseudo]
  constructor
  · intro h
    split at h
    case h_1 u hu =>
      cases h
      exact ⟨hu, rfl⟩
    all_goals cases h
  · rintro ⟨h, rfl⟩
    rw [h]

/-- A pseudo-operation succeeds only with the status OK: with any other it gives an error. -/
theorem status_of_pseudoResult_eq_done {p : Pseudo} {r : Res} (h : .done = pseudoResult p r) : r.status = .ok := by
  by_contra bad
  rw [pseudoResult, if_neg bad] at h
  cases h

/-! ## `RESET` (R110) -/

/-- The image of the default Configuration (10_state.md R26). -/
theorem cfgImage_defaultCfg (en : BitVec 3) : Spec.cfgImage (defaultCfg en) = 0x0127 ||| (en.setWidth 16 <<< 12) :=
  Except.ok.inj ((encodeCfg_eq_image _).symm.trans (defaultImage en))

/-- The default Configuration with the reset flag set has the image 0x8127 beside the enable flags, for every `DEFAULT_EN`. -/
theorem insertField_rst_defaultImage (en : BitVec 3) :
    insertField .rst 1 (0x0127 ||| (en.setWidth 16 <<< 12)) = 0x8127 ||| (en.setWidth 16 <<< 12) := by
  revert en
  decide

/-- The image that `RESET` sends, whatever `T` held before. -/
theorem imageOf_reset (t : TFile) :
    Spec.imageOf .cfg (Spec.setCell .rst 1 (Spec.defaulted .cfg t)) = 0x8127 ||| (defaultEn.setWidth 16 <<< 12) := by
  have default : Spec.imageOf .cfg (Spec.defaulted .cfg t) = 0x0127 ||| (defaultEn.setWidth 16 <<< 12) :=
    cfgImage_defaultCfg defaultEn
  rw [imageOf_setCell rfl, default]
  exact insertField_rst_defaultImage defaultEn

/-- `RESET` comes down to a `WR CFG` of the default cells with the reset flag set. -/
theorem issueAll_reset (s : State) :
    issueAll ((expand .reset).map encode) s = exec (wrOf .cfg) { s with
      t := Spec.setCell .rst 1 (Spec.defaulted .cfg s.t), res := ⟨.ok, 1, none⟩ } := by
  have dflt := (dfltWritesTheDefaults .cfg s).2
  calc issueAll ((expand .reset).map encode) s
    _ = issueAll ([setfOf .rst 1, wrOf .cfg].map encode) { s with
          t := Spec.defaulted .cfg s.t, res := ⟨.ok, 0, none⟩ } := issueAll_of_ok dflt rfl
    _ = issueAll ([wrOf .cfg].map encode) { s with
          t := Spec.setCell .rst 1 (Spec.defaulted .cfg s.t), res := ⟨.ok, 1, none⟩ } :=
        issueAll_of_ok (setfStoresTheClippedField .rst 1 _).2 rfl
    _ = _ := issueAll_singleton _ _

/-- Settles O56: of the three commands only `WR CFG` uses the bus, and its answer decides the result. -/
theorem facadeResetWritesOnce : Obligations.FacadeResetWritesOnce := by
  rintro s W a hs rfl ha
  rw [← imageOf_reset s.t] at ha ⊢
  have wr := wrSendsTheCells .cfg { s with t := Spec.setCell .rst 1 (Spec.defaulted .cfg s.t), res := ⟨.ok, 1, none⟩ } a _ hs
    (Prod.ext ha.symm rfl)
  refine ⟨_, runPseudo_eq_next.2 ⟨(issueAll_reset s).trans wr, ?_⟩, rfl, rfl⟩
  cases a with
  | success => rfl
  | failed ph e => rfl

/-! ## The enable and "set" operations (R111 to R115) -/

/-- An enable or "set" operation is one `MODF CFG` of its field and operand. -/
theorem expand_of_target {p : Pseudo} {f : Field} {v : Word} (h : Spec.target p = some (f, v)) :
    ∃ i, expand p = [i] ∧ modfOf .cfg f v = some i := by
  cases p
  case ench n => cases n <;> cases h <;> exact ⟨_, rfl, rfl⟩
  case disch n => cases n <;> cases h <;> exact ⟨_, rfl, rfl⟩
  case setmode | setbct | setsct | setavg => cases h; exact ⟨_, rfl, rfl⟩
  all_goals cases h

/-- Masking keeps the bits inside the mask. -/
theorem getLsbD_and_lowMask (v : Word) {w i : Nat} (hi : i < w) : (v &&& lowMask w).getLsbD i = v.getLsbD i := by
  by_cases h16 : i < 16
  · simp only [BitVec.getLsbD_and, getLsbD_lowMask, hi, h16, decide_true, Bool.and_true]
  · rw [BitVec.getLsbD_of_ge _ _ (by omega), BitVec.getLsbD_of_ge _ _ (by omega)]

/-- Clipping keeps the bits that fit the field (30_encoding.md R55). -/
theorem getLsbD_clip (f : Field) (v : Word) {i : Nat} (hi : i < (fieldSpec f).width) : (clip f v).getLsbD i = v.getLsbD i := by
  cases f
  case rst | en1 | en2 | en3 => exact getLsbD_and_lowMask v (w := 1) hi
  case avg | bct | sct | mode => exact getLsbD_and_lowMask v (w := 3) hi
  case volt =>
    have h13 : i < 13 := hi
    have h16 : i < 16 := by omega
    simp only [clip, sext13, BitVec.getLsbD_signExtend, BitVec.getLsbD_setWidth, h13, h16, decide_true, Bool.true_and, if_true]
  case id => rfl

/-- A clipped immediate inserted at its field, bit by bit: the field takes the immediate's low bits. -/
theorem getLsbD_insertField_clip (f : Field) (v W : Word) {j : Nat} (hj : j < 16) :
    (insertField f (clip f v) W).getLsbD j =
      if (fieldSpec f).start ≤ j ∧ j < (fieldSpec f).start + (fieldSpec f).width then v.getLsbD (j - (fieldSpec f).start)
      else W.getLsbD j := by
  rw [insertField, getLsbD_insertBits _ _ _ _ _ hj]
  split
  case isTrue h => exact getLsbD_clip f v (by omega)
  case isFalse => rfl

/-- Settles O57: the one command is a `MODF CFG` that ends with OK, whose two images field isolation relates. -/
theorem facadeSetChangesOneField : Obligations.FacadeSetChangesOneField := by
  intro p f v s t hp h
  obtain ⟨i, hexpand, hi⟩ := expand_of_target hp
  obtain ⟨issued, hdone⟩ := runPseudo_eq_next.1 h
  rw [hexpand, issueAll_singleton] at issued
  obtain ⟨r0, r1, w0, w1, hlog, ⟨_, W, -, -, hread, hwritten⟩, -⟩ :=
    fieldIsolation .cfg f v i s t hi issued (status_of_pseudoResult_eq_done hdone)
  refine ⟨r0, r1, w0, w1, hlog, fun j hj => ?_⟩
  rw [hwritten, hread rfl, position_eq]
  exact getLsbD_insertField_clip f v _ hj

/-! ## The "get" operations (R112 to R119) -/

/-- A variant's ordinal names that variant (10_state.md R22 to R24). -/
theorem modeOf_modeOrdinal (m : Mode) : modeOf (modeOrdinal m) = m := by cases m <;> rfl
theorem convTimeOf_convTimeOrdinal (c : ConversionTime) : convTimeOf (convTimeOrdinal c) = c := by cases c <;> rfl
theorem averagesOf_averagesOrdinal (a : Averages) : averagesOf (averagesOrdinal a) = a := by cases a <;> rfl

/-- A "get" operation is an `RD` of its register and a `GETF` of one cell, and makes its value of that cell. -/
theorem expand_of_source {p : Pseudo} {k : Kind} (h : Spec.source p = some k) :
    ∃ f, expand p = [rdOf k, getfOf f] ∧
      ∀ W t, Spec.gotten W p = some (pseudoValue p (Spec.cellBits f (Spec.loaded k W t))) := by
  have signed : ∀ W : Word, (W.extractLsb' 3 13).toInt = ((W.extractLsb' 3 13).signExtend 16).toInt := fun W =>
    (BitVec.toInt_signExtend_of_le (by decide)).symm
  cases p
  case getmode =>
    cases h
    exact ⟨.mode, rfl, fun W t => congrArg (fun x => some (PseudoResult.mode x)) (modeOf_modeOrdinal _).symm⟩
  case getbct =>
    cases h
    exact ⟨.bct, rfl, fun W t => congrArg (fun x => some (PseudoResult.convTime x)) (convTimeOf_convTimeOrdinal _).symm⟩
  case getsct =>
    cases h
    exact ⟨.sct, rfl, fun W t => congrArg (fun x => some (PseudoResult.convTime x)) (convTimeOf_convTimeOrdinal _).symm⟩
  case getavg =>
    cases h
    exact ⟨.avg, rfl, fun W t => congrArg (fun x => some (PseudoResult.averages x)) (averagesOf_averagesOrdinal _).symm⟩
  case shuntv n =>
    cases n <;> cases h <;>
      exact ⟨.volt, rfl, fun W t => congrArg (fun x => some (PseudoResult.microvolts (40 * x))) (signed W)⟩
  case busv n =>
    cases n <;> cases h <;>
      exact ⟨.volt, rfl, fun W t => congrArg (fun x => some (PseudoResult.millivolts (8 * x))) (signed W)⟩
  case mfgid | dieid =>
    cases h
    exact ⟨.id, rfl, fun W t => rfl⟩
  all_goals cases h

/-- Settles O58: the `RD` delivers the image, and the `GETF` reports the cell loaded from it. -/
theorem facadeGetReadsAfresh : Obligations.FacadeGetReadsAfresh := by
  intro p k s r0 r1 bus hp hs hr
  obtain ⟨f, hexpand, value⟩ := expand_of_source hp
  have rd := rdDeliversTheRegister k s r0 r1 bus hs hr
  have issued := (issueAll_of_ok rd rfl).trans ((issueAll_singleton _ _).trans (getfReportsTheField f _).2)
  rw [← hexpand] at issued
  exact ⟨_, _, value (r0 ++ r1) s.t, runPseudo_eq_next.2 ⟨issued, rfl⟩, rfl⟩

/-- Settles O59: the `RD` ends with the cause, so the `GETF` is not issued. -/
theorem facadeGetStopsAtAFailedRead : Obligations.FacadeGetStopsAtAFailedRead := by
  intro p k s e bus hp hs hr
  obtain ⟨f, hexpand, -⟩ := expand_of_source hp
  have issued := issueAll_of_error (is := [getfOf f]) (rdReportsTransportError k s e bus hs hr) nofun
  rw [← hexpand] at issued
  exact ⟨_, runPseudo_eq_next.2 ⟨issued, rfl⟩, rfl, rfl, rfl⟩

end Sys2Proof.Machine

/-! SUPPORT. Proofs of the family `60_exceptions.md`: the illegal words, what an error leaves unchanged, the status codes. -/

namespace Sys2Proof.Machine

/-! ## Illegal words (R135) -/

/-- A word that no row of the opcode map selects decodes to no instruction (30_encoding.md section 7). -/
theorem decode_ne_ok_of_no_row {c : CmdWord} (noRow : ∀ r ∈ opcodeRows, r.selects c = false) (i : Instr) :
    decode c ≠ .ok i := by
  intro hd
  obtain ⟨r, hr, selected⟩ := (legalWordsAreTheTableRows c).1.1 ⟨i, hd⟩
  exact Bool.false_ne_true ((noRow r hr).symm.trans selected)

/-- Settles O7: the word is illegal, so its command is `raise`, which writes `RES` alone, and the host then moves on. -/
theorem illegalWordsReportIllegalCommand : Obligations.IllegalWordsReportIllegalCommand := fun s _ _ hp noRow =>
  step_of_command hp (issue_of_illegal (decode_ne_ok_of_no_row noRow) s)

/-! ## What an error leaves (R138) -/

/-- A cause is recorded exactly with TransportError (10_state.md R13). -/
theorem errCause_isSome_iff (e : Err) : (errCause e).isSome = true ↔ errStatus e = .transportError := by
  cases e <;> simp [errCause, errStatus]

/-- A command's end whose status is not OK settled an error, and so wrote only `RES`, as the error says (R131, R138). -/
theorem settle_of_status_ne_ok {r : Except Err Success} {bus : Bus} {s : State} (bad : (settle r bus s).res.status ≠ .ok) :
    ∃ e, (settle r bus s).t = s.t ∧ (settle r bus s).b = s.b ∧ (settle r bus s).res = errRes e := by
  cases r with
  | ok d => exact absurd rfl bad
  | error e => exact ⟨e, rfl, rfl, rfl⟩

/-- Settles O15: every command ends in one `settle`. -/
theorem errorsWriteOnlyRes : Obligations.ErrorsWriteOnlyRes := by
  intro i s t h bad
  obtain ⟨r, bus, rfl, -⟩ := exec_next h
  obtain ⟨e, ht, hb, hres⟩ := settle_of_status_ne_ok bad
  rw [hres]
  exact ⟨ht, hb, rfl, errCause_isSome_iff e⟩

/-! ## The codes of the statuses (R131) -/

/-- The codes 5 to 7 stand for no status. -/
theorem statusCode_lt_five (st : Status) : (statusCode st).toNat < 5 := by
  cases st <;> decide

/-- Settles O20: the five codes are the rows of `statusCode`. -/
theorem statusCodes : Obligations.StatusCodes := ⟨rfl, rfl, rfl, rfl, rfl, statusCode_lt_five⟩

end Sys2Proof.Machine

/-! SUPPORT. Proofs of the family `70_reset_and_hazards.md`: every command completes if the transport answers (R158). -/

namespace Sys2Proof.Machine

/-- With the second turn answered, no write is left unanswered (20_memory.md R45). -/
theorem not_silentWrite_of_answered {s : State} (h1 : silentAt 1 s = false) (i : Instr) : ¬ SilentWrite i s := by
  rintro ⟨k, f, imm, r0, r1, -, silent, -⟩
  exact nomatch h1.symm.trans silent

/-- Settles O17: a command that does not complete has an unanswered transaction, in one of the two turns that are answered. -/
theorem commandsCompleteIfTheTransportAnswers : Obligations.CommandsCompleteIfTheTransportAnswers := by
  rintro i s ⟨h0, h1⟩
  rcases exec_next_or_silent i s with completes | ⟨-, silent | silentWrite⟩
  · exact completes
  · exact nomatch h0.symm.trans silent
  · exact absurd silentWrite (not_silentWrite_of_answered h1 i)

/-- Settles O18: such a command ends with OK over the bus it found, and the end of a command does not write the strap. -/
theorem quietCommandsAlwaysComplete : Obligations.QuietCommandsAlwaysComplete := by
  intro i s hq
  obtain ⟨d, completes⟩ := exec_of_quiet hq s
  exact ⟨_, completes, rfl, rfl, rfl, rfl⟩

end Sys2Proof.Machine
